-- ==== Sys2Proof/Word.lean ====
section
/-!
DEFINITION. The unit of the window RAM and of the stream: the byte (R60, R72).
-/

namespace Sys2Proof

/-- One byte: a window RAM entry, a chunk byte, a literal (R60, R94). -/
abbrev Byte := BitVec 8

end Sys2Proof
end

