-- ==== Sys2Proof/Config.lean ====
section
/-!
DEFINITION. What an implementation fixes: the shape of the CodeTable (R41) and the two values the spec
leaves free (R45, R82, R162, R232).

The numbers of R6 stand in the definitions as the spec's own pseudocode writes them: 8192 BUF_SIZE, 4096 HALF,
64 ACC_BITS (the width of `acc`), 56 REFILL_LIMIT, 16 N_LEN, 64 N_DIST, 256 N_LOOKUP, 9 LIT_USED, 2 SHORT_TW,
2 LEN_OFFSET, 1 DIST_OFFSET, 0 the one supported mode. CHUNK_MAX is unbounded (DESIGN CHOICE, safe, log 10).
-/

namespace Sys2Proof

/-- The CodeTable: read-only arrays bound at NEW (R41). Entries that are counts or indices are naturals, so that a
table whose lookup indices are out of bounds can be presented and refused (R209); `CodeTable.wf` bounds each of
them to the width R41 gives (log 16). -/
structure CodeTable where
  /-- `T.len_extra_bits`: number of extra bits of each length code. -/
  lenExtraBits : List Nat
  /-- `T.len_base`: read by no rule (R41, D21). -/
  lenBase : List Byte
  /-- `T.len_bits`: bit-width of each length code. -/
  lenBits : List Nat
  /-- `T.len_addend`: added to the extra-bits field. -/
  lenAddend : List Nat
  /-- `T.len_lookup`: byte to length code. -/
  lenLookup : List Nat
  /-- `T.dist_bits`: bit-width of each distance code. -/
  distBits : List Nat
  /-- `T.dist_lookup`: byte to distance code. -/
  distLookup : List Nat
  /-- `T.end_value`: the reserved END sentinel. -/
  endValue : Nat
  deriving DecidableEq, Repr

/-- The power-on content of a window byte that nothing has written: `powerOnByte n p` is the byte at physical
address `p` of the instance whose draw number is `n`. A FREE VALUE (safe, log 1): the spec gives these bytes no
value (R82, R162, R232), and nothing may be proved about one. -/
opaque Config.powerOnByte : Nat → Nat → Byte

/-- What a pair reads at a byte of an earlier stream: `staleByte n p b` is the byte it gets at physical address `p` of
instance `n`, where that stream left `b`. A FREE VALUE (safe, log 1): the spec gives such a read no value (R45, R82,
R162, U6), and nothing may be proved about one. -/
opaque Config.staleByte : Nat → Nat → Byte → Byte

end Sys2Proof
end

