-- ==== Sys2Proof/Machine/Table.lean ====
section
/-!
DEFINITION. The CodeTable: its entries by index, its well-formedness (R42), and the standard instance (R104 to R108).
-/

namespace Sys2Proof

/-- `T.len_bits[i]` (R41). An index outside the array, which no well-formed table produces, reads 0 (log 16). -/
def CodeTable.lenBitsAt (T : CodeTable) (i : Nat) : Nat := T.lenBits.getD i 0

/-- `T.len_extra_bits[i]` (R41). -/
def CodeTable.lenExtraBitsAt (T : CodeTable) (i : Nat) : Nat := T.lenExtraBits.getD i 0

/-- `T.len_addend[i]` (R41). -/
def CodeTable.lenAddendAt (T : CodeTable) (i : Nat) : Nat := T.lenAddend.getD i 0

/-- `T.len_lookup[b]` (R41). -/
def CodeTable.lenLookupAt (T : CodeTable) (b : Nat) : Nat := T.lenLookup.getD b 0

/-- `T.dist_bits[j]` (R41). -/
def CodeTable.distBitsAt (T : CodeTable) (j : Nat) : Nat := T.distBits.getD j 0

/-- `T.dist_lookup[b]` (R41). -/
def CodeTable.distLookupAt (T : CodeTable) (b : Nat) : Nat := T.distLookup.getD b 0

/-- Prefix consistency of a lookup (R42 items 5 and 6): with `i` the entry of byte `b` and `w` the width of code `i`,
no index bit at or above `w` changes the entry ("the lookup entry for an index must depend only on the low `w` bits of
the index", R103). `prefixConsistent_iff` in Laws/Table.lean says it in the words of R42: every byte that agrees with
`b` modulo `2 ^ w` has the entry `i`. -/
def prefixConsistent (lookup bits : List Nat) : Bool :=
  lookup.zipIdx.all fun entry =>
    (List.range 8).all fun k =>
      decide (k < bits.getD entry.1 0) || lookup.getD (entry.2 ^^^ 2 ^ k) 0 == entry.1

/-- R42 item 1: the arrays have the entry counts of R41. -/
def CodeTable.countsOk (T : CodeTable) : Bool :=
  T.lenExtraBits.length == 16 && T.lenBase.length == 16 && T.lenBits.length == 16 && T.lenAddend.length == 16 &&
    T.lenLookup.length == 256 && T.distBits.length == 64 && T.distLookup.length == 256

/-- R42 items 2, 3, 4 and 7: every entry is in its range. -/
def CodeTable.rangesOk (T : CodeTable) : Bool :=
  T.lenLookup.all (· < 16) && T.distLookup.all (· < 64) &&
    T.lenBits.all (fun w => 1 ≤ w && w ≤ 8) && T.distBits.all (fun w => 1 ≤ w && w ≤ 8) &&
    T.lenExtraBits.all (· ≤ 8) &&
    (T.lenAddend.zip T.lenExtraBits).all (fun c => c.1 + 2 ^ c.2 - 1 + 2 ≤ 65535) && T.endValue ≤ 65535

/-- `WF(T)` (R42): all seven items. -/
def CodeTable.wf (T : CodeTable) : Bool :=
  T.countsOk && T.rangesOk && prefixConsistent T.lenLookup T.lenBits && prefixConsistent T.distLookup T.distBits

/-- The rule that generates a 256-entry lookup from code patterns and widths (R103): the entry of a byte is the
first code whose pattern is the byte's low bits. R103 is meant for complete prefix codes, as the standard ones are: that
the first of two matching codes counts, and that a byte no code matches gets the number of codes, is the model's (DESIGN
CHOICE, safe, log 24). -/
def generateLookup (patterns bits : List Nat) : List Nat :=
  (List.range 256).map fun b => (patterns.zip bits).findIdx fun c => b % 2 ^ c.2 == c.1

/-- The patterns of the 16 standard length codes (R104, column "pattern"). -/
def standardLenPatterns : List Nat :=
  [5, 3, 1, 6, 10, 2, 12, 20, 4, 24, 8, 48, 16, 32, 64, 0]

/-- The patterns of the 64 standard distance codes (R106, column "pattern"). -/
def standardDistPatterns : List Nat :=
  [3, 13, 5, 25, 9, 17, 1, 62, 30, 46, 14, 54, 22, 38, 6, 58] ++
  [26, 42, 10, 50, 18, 34, 66, 2, 124, 60, 92, 28, 108, 44, 76, 12] ++
  [116, 52, 84, 20, 100, 36, 68, 4, 120, 56, 88, 24, 104, 40, 72, 8] ++
  [240, 112, 176, 48, 208, 80, 144, 16, 224, 96, 160, 32, 192, 64, 128, 0]

/-- The standard `T.len_lookup` (R105), one row of the table a line. -/
def standardLenLookup : List Nat :=
  [15, 2, 5, 1, 8, 0, 3, 1, 10, 2, 4, 1, 6, 0, 3, 1] ++
  [12, 2, 5, 1, 7, 0, 3, 1, 9, 2, 4, 1, 6, 0, 3, 1] ++
  [13, 2, 5, 1, 8, 0, 3, 1, 10, 2, 4, 1, 6, 0, 3, 1] ++
  [11, 2, 5, 1, 7, 0, 3, 1, 9, 2, 4, 1, 6, 0, 3, 1] ++
  [14, 2, 5, 1, 8, 0, 3, 1, 10, 2, 4, 1, 6, 0, 3, 1] ++
  [12, 2, 5, 1, 7, 0, 3, 1, 9, 2, 4, 1, 6, 0, 3, 1] ++
  [13, 2, 5, 1, 8, 0, 3, 1, 10, 2, 4, 1, 6, 0, 3, 1] ++
  [11, 2, 5, 1, 7, 0, 3, 1, 9, 2, 4, 1, 6, 0, 3, 1] ++
  [15, 2, 5, 1, 8, 0, 3, 1, 10, 2, 4, 1, 6, 0, 3, 1] ++
  [12, 2, 5, 1, 7, 0, 3, 1, 9, 2, 4, 1, 6, 0, 3, 1] ++
  [13, 2, 5, 1, 8, 0, 3, 1, 10, 2, 4, 1, 6, 0, 3, 1] ++
  [11, 2, 5, 1, 7, 0, 3, 1, 9, 2, 4, 1, 6, 0, 3, 1] ++
  [14, 2, 5, 1, 8, 0, 3, 1, 10, 2, 4, 1, 6, 0, 3, 1] ++
  [12, 2, 5, 1, 7, 0, 3, 1, 9, 2, 4, 1, 6, 0, 3, 1] ++
  [13, 2, 5, 1, 8, 0, 3, 1, 10, 2, 4, 1, 6, 0, 3, 1] ++
  [11, 2, 5, 1, 7, 0, 3, 1, 9, 2, 4, 1, 6, 0, 3, 1]

/-- The widths of the 64 standard distance codes (R106). -/
def standardDistBits : List Nat :=
  [2, 4, 4, 5, 5, 5, 5, 6, 6, 6, 6, 6, 6, 6, 6, 6] ++
  [6, 6, 6, 6, 6, 6, 7, 7, 7, 7, 7, 7, 7, 7, 7, 7] ++
  [7, 7, 7, 7, 7, 7, 7, 7, 7, 7, 7, 7, 7, 7, 7, 7] ++
  [8, 8, 8, 8, 8, 8, 8, 8, 8, 8, 8, 8, 8, 8, 8, 8]

/-- The standard `T.dist_lookup` (R107), one row of the table a line. -/
def standardDistLookup : List Nat :=
  [63, 6, 23, 0, 39, 2, 14, 0, 47, 4, 18, 0, 31, 1, 10, 0] ++
  [55, 5, 20, 0, 35, 2, 12, 0, 43, 3, 16, 0, 27, 1, 8, 0] ++
  [59, 6, 21, 0, 37, 2, 13, 0, 45, 4, 17, 0, 29, 1, 9, 0] ++
  [51, 5, 19, 0, 33, 2, 11, 0, 41, 3, 15, 0, 25, 1, 7, 0] ++
  [61, 6, 22, 0, 38, 2, 14, 0, 46, 4, 18, 0, 30, 1, 10, 0] ++
  [53, 5, 20, 0, 34, 2, 12, 0, 42, 3, 16, 0, 26, 1, 8, 0] ++
  [57, 6, 21, 0, 36, 2, 13, 0, 44, 4, 17, 0, 28, 1, 9, 0] ++
  [49, 5, 19, 0, 32, 2, 11, 0, 40, 3, 15, 0, 24, 1, 7, 0] ++
  [62, 6, 23, 0, 39, 2, 14, 0, 47, 4, 18, 0, 31, 1, 10, 0] ++
  [54, 5, 20, 0, 35, 2, 12, 0, 43, 3, 16, 0, 27, 1, 8, 0] ++
  [58, 6, 21, 0, 37, 2, 13, 0, 45, 4, 17, 0, 29, 1, 9, 0] ++
  [50, 5, 19, 0, 33, 2, 11, 0, 41, 3, 15, 0, 25, 1, 7, 0] ++
  [60, 6, 22, 0, 38, 2, 14, 0, 46, 4, 18, 0, 30, 1, 10, 0] ++
  [52, 5, 20, 0, 34, 2, 12, 0, 42, 3, 16, 0, 26, 1, 8, 0] ++
  [56, 6, 21, 0, 36, 2, 13, 0, 44, 4, 17, 0, 28, 1, 9, 0] ++
  [48, 5, 19, 0, 32, 2, 11, 0, 40, 3, 15, 0, 24, 1, 7, 0]

/-- The standard CodeTable (R104 to R108; PRESUMED, log 3); `len_base` holds the length-code patterns (R104, D21). -/
def standardTable : CodeTable where
  lenExtraBits := [0, 0, 0, 0, 0, 0, 0, 0, 1, 2, 3, 4, 5, 6, 7, 8]
  lenBase := standardLenPatterns.map (BitVec.ofNat 8)
  lenBits := [3, 2, 3, 3, 4, 4, 4, 5, 5, 5, 5, 6, 6, 6, 7, 7]
  lenAddend := [0, 1, 2, 3, 4, 5, 6, 7, 8, 10, 14, 22, 38, 70, 134, 262]
  lenLookup := standardLenLookup
  distBits := standardDistBits
  distLookup := standardDistLookup
  endValue := 517

end Sys2Proof
end

