-- ==== Sys2Proof/Machine/Operands.lean ====
section
/-!
DEFINITION. The operand forms of the stream symbols: what the encoded fields of a pair or of the end marker say
(R97, R98), how many bits a symbol uses (R99), and which field values an encoding admits (R95, R96).
-/

namespace Sys2Proof

/-- The length value of length code `lc` with extra bits `extra`, before the offset of 2 (R97, R123). -/
def lengthValue (T : CodeTable) (lc extra : Nat) : Nat :=
  if T.lenExtraBitsAt lc ≠ 0 then T.lenAddendAt lc + extra else lc

/-- Bits of the length part: class bit, code bits, extra bits (R95 fields 1 to 3, R96). -/
def lengthUsed (T : CodeTable) (lc : Nat) : Nat := 1 + T.lenBitsAt lc + T.lenExtraBitsAt lc

/-- The pair's length (R97): the offset of 2 is added to the length value. -/
def pairLength (val : Nat) : Nat := val + 2

/-- Width of the trailing distance field (R98): 2 bits for the shortest pair, `dict_bits` bits otherwise. -/
def trailingWidth (val dictBits : Nat) : Nat := if val = 0 then 2 else dictBits

/-- The distance of distance code `dc` with trailing field `low` of width `tw` (R98), exact (R129). -/
def pairDistance (dc tw low : Nat) : Nat := (dc <<< tw ||| low) + 1

/-- Bits of the distance part: code bits and trailing field (R95 fields 4 and 5). -/
def distanceUsed (T : CodeTable) (dc tw : Nat) : Nat := T.distBitsAt dc + tw

/-- Bits of a literal: LIT_USED (R94, R122). -/
def literalUsed : Nat := 9

/-- The length code has an encoding and the extra field fits its width (R95 fields 2 and 3). -/
def lengthFieldsOk (T : CodeTable) (lc extra : Nat) : Bool :=
  decide (lc < 16) && T.lenLookup.contains lc && decide (extra < 2 ^ T.lenExtraBitsAt lc)

/-- The distance code has an encoding and the trailing field fits its width (R95 fields 4 and 5). -/
def distanceFieldsOk (T : CodeTable) (tw dc low : Nat) : Bool :=
  decide (dc < 64) && T.distLookup.contains dc && decide (low < 2 ^ tw)

/-- The fields of a pair (R95): both parts are encodable and the length value is not the END sentinel (R97). -/
def pairFieldsOk (T : CodeTable) (dictBits lc extra dc low : Nat) : Bool :=
  lengthFieldsOk T lc extra && decide (lengthValue T lc extra ≠ T.endValue) &&
    distanceFieldsOk T (trailingWidth (lengthValue T lc extra) dictBits) dc low

/-- The fields of the end marker (R96): an encodable length part whose value is the END sentinel. -/
def endFieldsOk (T : CodeTable) (lc extra : Nat) : Bool :=
  lengthFieldsOk T lc extra && decide (lengthValue T lc extra = T.endValue)

end Sys2Proof
end

