-- ==== Sys2Proof/Syntax.lean ====
section
/-!
DEFINITION. The instructions: one constructor per row of spec/opcode_table.json (R2, R111), the command record the
host presents (R38) and the symbols the decoder returns (R12).
-/

namespace Sys2Proof

/-- The instructions. The operands of a stream item are its encoded fields (R91 to R98), those of a command the
operands of R171 and R174. -/
inductive Instr where
  /-- MODE: the first header byte (R91, R141). Only the value 0 is accepted; any other is examined and raises
  UNSUPPORTED_MODE (R207). -/
  | mode (b : Byte)
  /-- DICT: the second header byte (R92, R142). -/
  | dict (b : Byte)
  /-- LIT: a literal byte (R94, R122, R154). -/
  | lit (b : Byte)
  /-- END: a length code `lc` and its extra bits whose length value is the END sentinel (R96, R124, R157). -/
  | endMark (lc extra : Nat)
  /-- PAIR.L0: a pair with length code 0; extra length bits, distance code, trailing field (R95, R155). -/
  | pairL0 (extra dc low : Nat)
  /-- PAIR.L1: a pair with length code 1; extra length bits, distance code, trailing field (R95, R155). -/
  | pairL1 (extra dc low : Nat)
  /-- PAIR.L2: a pair with length code 2; extra length bits, distance code, trailing field (R95, R155). -/
  | pairL2 (extra dc low : Nat)
  /-- PAIR.L3: a pair with length code 3; extra length bits, distance code, trailing field (R95, R155). -/
  | pairL3 (extra dc low : Nat)
  /-- PAIR.L4: a pair with length code 4; extra length bits, distance code, trailing field (R95, R155). -/
  | pairL4 (extra dc low : Nat)
  /-- PAIR.L5: a pair with length code 5; extra length bits, distance code, trailing field (R95, R155). -/
  | pairL5 (extra dc low : Nat)
  /-- PAIR.L6: a pair with length code 6; extra length bits, distance code, trailing field (R95, R155). -/
  | pairL6 (extra dc low : Nat)
  /-- PAIR.L7: a pair with length code 7; extra length bits, distance code, trailing field (R95, R155). -/
  | pairL7 (extra dc low : Nat)
  /-- PAIR.L8: a pair with length code 8; extra length bits, distance code, trailing field (R95, R155). -/
  | pairL8 (extra dc low : Nat)
  /-- PAIR.L9: a pair with length code 9; extra length bits, distance code, trailing field (R95, R155). -/
  | pairL9 (extra dc low : Nat)
  /-- PAIR.L10: a pair with length code 10; extra length bits, distance code, trailing field (R95, R155). -/
  | pairL10 (extra dc low : Nat)
  /-- PAIR.L11: a pair with length code 11; extra length bits, distance code, trailing field (R95, R155). -/
  | pairL11 (extra dc low : Nat)
  /-- PAIR.L12: a pair with length code 12; extra length bits, distance code, trailing field (R95, R155). -/
  | pairL12 (extra dc low : Nat)
  /-- PAIR.L13: a pair with length code 13; extra length bits, distance code, trailing field (R95, R155). -/
  | pairL13 (extra dc low : Nat)
  /-- PAIR.L14: a pair with length code 14; extra length bits, distance code, trailing field (R95, R155). -/
  | pairL14 (extra dc low : Nat)
  /-- PAIR.L15: a pair with length code 15; extra length bits, distance code, trailing field (R95, R155). -/
  | pairL15 (extra dc low : Nat)
  /-- DIST.D0: the distance sub-field with distance code 0 and its trailing field (R95 fields 4, 5; R125). -/
  | distD0 (low : Nat)
  /-- DIST.D1: the distance sub-field with distance code 1 and its trailing field (R95 fields 4, 5; R125). -/
  | distD1 (low : Nat)
  /-- DIST.D2: the distance sub-field with distance code 2 and its trailing field (R95 fields 4, 5; R125). -/
  | distD2 (low : Nat)
  /-- DIST.D3: the distance sub-field with distance code 3 and its trailing field (R95 fields 4, 5; R125). -/
  | distD3 (low : Nat)
  /-- DIST.D4: the distance sub-field with distance code 4 and its trailing field (R95 fields 4, 5; R125). -/
  | distD4 (low : Nat)
  /-- DIST.D5: the distance sub-field with distance code 5 and its trailing field (R95 fields 4, 5; R125). -/
  | distD5 (low : Nat)
  /-- DIST.D6: the distance sub-field with distance code 6 and its trailing field (R95 fields 4, 5; R125). -/
  | distD6 (low : Nat)
  /-- DIST.D7: the distance sub-field with distance code 7 and its trailing field (R95 fields 4, 5; R125). -/
  | distD7 (low : Nat)
  /-- DIST.D8: the distance sub-field with distance code 8 and its trailing field (R95 fields 4, 5; R125). -/
  | distD8 (low : Nat)
  /-- DIST.D9: the distance sub-field with distance code 9 and its trailing field (R95 fields 4, 5; R125). -/
  | distD9 (low : Nat)
  /-- DIST.D10: the distance sub-field with distance code 10 and its trailing field (R95 fields 4, 5; R125). -/
  | distD10 (low : Nat)
  /-- DIST.D11: the distance sub-field with distance code 11 and its trailing field (R95 fields 4, 5; R125). -/
  | distD11 (low : Nat)
  /-- DIST.D12: the distance sub-field with distance code 12 and its trailing field (R95 fields 4, 5; R125). -/
  | distD12 (low : Nat)
  /-- DIST.D13: the distance sub-field with distance code 13 and its trailing field (R95 fields 4, 5; R125). -/
  | distD13 (low : Nat)
  /-- DIST.D14: the distance sub-field with distance code 14 and its trailing field (R95 fields 4, 5; R125). -/
  | distD14 (low : Nat)
  /-- DIST.D15: the distance sub-field with distance code 15 and its trailing field (R95 fields 4, 5; R125). -/
  | distD15 (low : Nat)
  /-- DIST.D16: the distance sub-field with distance code 16 and its trailing field (R95 fields 4, 5; R125). -/
  | distD16 (low : Nat)
  /-- DIST.D17: the distance sub-field with distance code 17 and its trailing field (R95 fields 4, 5; R125). -/
  | distD17 (low : Nat)
  /-- DIST.D18: the distance sub-field with distance code 18 and its trailing field (R95 fields 4, 5; R125). -/
  | distD18 (low : Nat)
  /-- DIST.D19: the distance sub-field with distance code 19 and its trailing field (R95 fields 4, 5; R125). -/
  | distD19 (low : Nat)
  /-- DIST.D20: the distance sub-field with distance code 20 and its trailing field (R95 fields 4, 5; R125). -/
  | distD20 (low : Nat)
  /-- DIST.D21: the distance sub-field with distance code 21 and its trailing field (R95 fields 4, 5; R125). -/
  | distD21 (low : Nat)
  /-- DIST.D22: the distance sub-field with distance code 22 and its trailing field (R95 fields 4, 5; R125). -/
  | distD22 (low : Nat)
  /-- DIST.D23: the distance sub-field with distance code 23 and its trailing field (R95 fields 4, 5; R125). -/
  | distD23 (low : Nat)
  /-- DIST.D24: the distance sub-field with distance code 24 and its trailing field (R95 fields 4, 5; R125). -/
  | distD24 (low : Nat)
  /-- DIST.D25: the distance sub-field with distance code 25 and its trailing field (R95 fields 4, 5; R125). -/
  | distD25 (low : Nat)
  /-- DIST.D26: the distance sub-field with distance code 26 and its trailing field (R95 fields 4, 5; R125). -/
  | distD26 (low : Nat)
  /-- DIST.D27: the distance sub-field with distance code 27 and its trailing field (R95 fields 4, 5; R125). -/
  | distD27 (low : Nat)
  /-- DIST.D28: the distance sub-field with distance code 28 and its trailing field (R95 fields 4, 5; R125). -/
  | distD28 (low : Nat)
  /-- DIST.D29: the distance sub-field with distance code 29 and its trailing field (R95 fields 4, 5; R125). -/
  | distD29 (low : Nat)
  /-- DIST.D30: the distance sub-field with distance code 30 and its trailing field (R95 fields 4, 5; R125). -/
  | distD30 (low : Nat)
  /-- DIST.D31: the distance sub-field with distance code 31 and its trailing field (R95 fields 4, 5; R125). -/
  | distD31 (low : Nat)
  /-- DIST.D32: the distance sub-field with distance code 32 and its trailing field (R95 fields 4, 5; R125). -/
  | distD32 (low : Nat)
  /-- DIST.D33: the distance sub-field with distance code 33 and its trailing field (R95 fields 4, 5; R125). -/
  | distD33 (low : Nat)
  /-- DIST.D34: the distance sub-field with distance code 34 and its trailing field (R95 fields 4, 5; R125). -/
  | distD34 (low : Nat)
  /-- DIST.D35: the distance sub-field with distance code 35 and its trailing field (R95 fields 4, 5; R125). -/
  | distD35 (low : Nat)
  /-- DIST.D36: the distance sub-field with distance code 36 and its trailing field (R95 fields 4, 5; R125). -/
  | distD36 (low : Nat)
  /-- DIST.D37: the distance sub-field with distance code 37 and its trailing field (R95 fields 4, 5; R125). -/
  | distD37 (low : Nat)
  /-- DIST.D38: the distance sub-field with distance code 38 and its trailing field (R95 fields 4, 5; R125). -/
  | distD38 (low : Nat)
  /-- DIST.D39: the distance sub-field with distance code 39 and its trailing field (R95 fields 4, 5; R125). -/
  | distD39 (low : Nat)
  /-- DIST.D40: the distance sub-field with distance code 40 and its trailing field (R95 fields 4, 5; R125). -/
  | distD40 (low : Nat)
  /-- DIST.D41: the distance sub-field with distance code 41 and its trailing field (R95 fields 4, 5; R125). -/
  | distD41 (low : Nat)
  /-- DIST.D42: the distance sub-field with distance code 42 and its trailing field (R95 fields 4, 5; R125). -/
  | distD42 (low : Nat)
  /-- DIST.D43: the distance sub-field with distance code 43 and its trailing field (R95 fields 4, 5; R125). -/
  | distD43 (low : Nat)
  /-- DIST.D44: the distance sub-field with distance code 44 and its trailing field (R95 fields 4, 5; R125). -/
  | distD44 (low : Nat)
  /-- DIST.D45: the distance sub-field with distance code 45 and its trailing field (R95 fields 4, 5; R125). -/
  | distD45 (low : Nat)
  /-- DIST.D46: the distance sub-field with distance code 46 and its trailing field (R95 fields 4, 5; R125). -/
  | distD46 (low : Nat)
  /-- DIST.D47: the distance sub-field with distance code 47 and its trailing field (R95 fields 4, 5; R125). -/
  | distD47 (low : Nat)
  /-- DIST.D48: the distance sub-field with distance code 48 and its trailing field (R95 fields 4, 5; R125). -/
  | distD48 (low : Nat)
  /-- DIST.D49: the distance sub-field with distance code 49 and its trailing field (R95 fields 4, 5; R125). -/
  | distD49 (low : Nat)
  /-- DIST.D50: the distance sub-field with distance code 50 and its trailing field (R95 fields 4, 5; R125). -/
  | distD50 (low : Nat)
  /-- DIST.D51: the distance sub-field with distance code 51 and its trailing field (R95 fields 4, 5; R125). -/
  | distD51 (low : Nat)
  /-- DIST.D52: the distance sub-field with distance code 52 and its trailing field (R95 fields 4, 5; R125). -/
  | distD52 (low : Nat)
  /-- DIST.D53: the distance sub-field with distance code 53 and its trailing field (R95 fields 4, 5; R125). -/
  | distD53 (low : Nat)
  /-- DIST.D54: the distance sub-field with distance code 54 and its trailing field (R95 fields 4, 5; R125). -/
  | distD54 (low : Nat)
  /-- DIST.D55: the distance sub-field with distance code 55 and its trailing field (R95 fields 4, 5; R125). -/
  | distD55 (low : Nat)
  /-- DIST.D56: the distance sub-field with distance code 56 and its trailing field (R95 fields 4, 5; R125). -/
  | distD56 (low : Nat)
  /-- DIST.D57: the distance sub-field with distance code 57 and its trailing field (R95 fields 4, 5; R125). -/
  | distD57 (low : Nat)
  /-- DIST.D58: the distance sub-field with distance code 58 and its trailing field (R95 fields 4, 5; R125). -/
  | distD58 (low : Nat)
  /-- DIST.D59: the distance sub-field with distance code 59 and its trailing field (R95 fields 4, 5; R125). -/
  | distD59 (low : Nat)
  /-- DIST.D60: the distance sub-field with distance code 60 and its trailing field (R95 fields 4, 5; R125). -/
  | distD60 (low : Nat)
  /-- DIST.D61: the distance sub-field with distance code 61 and its trailing field (R95 fields 4, 5; R125). -/
  | distD61 (low : Nat)
  /-- DIST.D62: the distance sub-field with distance code 62 and its trailing field (R95 fields 4, 5; R125). -/
  | distD62 (low : Nat)
  /-- DIST.D63: the distance sub-field with distance code 63 and its trailing field (R95 fields 4, 5; R125). -/
  | distD63 (low : Nat)
  /-- IS_ENDED (R173). -/
  | isEnded
  /-- PROCESS_CHUNK with its chunk (R174). -/
  | processChunk (chunk : List Byte)
  /-- RESET (R172). -/
  | reset
  /-- NEW with its CodeTable (R171). -/
  | new (table : CodeTable)
  deriving DecidableEq, Repr

/-- The PAIR constructors by length code. -/
def pairConstructors : List (Nat → Nat → Nat → Instr) :=
  [.pairL0, .pairL1, .pairL2, .pairL3, .pairL4, .pairL5, .pairL6, .pairL7,
   .pairL8, .pairL9, .pairL10, .pairL11, .pairL12, .pairL13, .pairL14, .pairL15]

/-- The DIST constructors by distance code. -/
def distConstructors : List (Nat → Instr) :=
  [.distD0, .distD1, .distD2, .distD3, .distD4, .distD5, .distD6, .distD7,
   .distD8, .distD9, .distD10, .distD11, .distD12, .distD13, .distD14, .distD15,
   .distD16, .distD17, .distD18, .distD19, .distD20, .distD21, .distD22, .distD23,
   .distD24, .distD25, .distD26, .distD27, .distD28, .distD29, .distD30, .distD31,
   .distD32, .distD33, .distD34, .distD35, .distD36, .distD37, .distD38, .distD39,
   .distD40, .distD41, .distD42, .distD43, .distD44, .distD45, .distD46, .distD47,
   .distD48, .distD49, .distD50, .distD51, .distD52, .distD53, .distD54, .distD55,
   .distD56, .distD57, .distD58, .distD59, .distD60, .distD61, .distD62, .distD63]

/-- The pair with length code `lc` (16 codes, R95); no code above 15 exists (R42 item 2). -/
def Instr.ofPair (lc extra dc low : Nat) : Instr := pairConstructors.getD lc .pairL15 extra dc low

/-- The distance sub-field with code `dc` (64 codes, R95); no code above 63 exists (R42 item 2). -/
def Instr.ofDist (dc low : Nat) : Instr := distConstructors.getD dc .distD63 low

/-- The command record (R38). `chunk` is the operand `in`, read by PROCESS_CHUNK only; `table` is read by NEW only. -/
structure CommandRecord where
  cmd : BitVec 2
  chunk : List Byte
  table : CodeTable
  deriving DecidableEq, Repr

/-- A symbol (R12): what the Symbol Decoder returns. -/
inductive Symbol where
  | literal (b : Byte)
  | pair (distance length : Nat)
  | endMark
  deriving DecidableEq, Repr

/-- What a symbol is encoded and decoded with: the CodeTable, `dict_bits` (R99), and, for a distance sub-field on its
own, the length value of the pair it stands in (its trailing width depends on it, R98). -/
structure Context where
  table : CodeTable
  dictBits : Nat
  lenVal : Nat
  deriving DecidableEq, Repr

end Sys2Proof
end

