-- ==== Sys2Proof/WellFormed.lean ====
section
/-!
DEFINITION. Which instructions are well-formed: their fields are values the encoding admits in the context they
stand in (R91 to R98), and the table of NEW satisfies WF (R42).
-/

namespace Sys2Proof

/-- The instruction is one the encoding admits in the context. -/
def Instr.wf (c : Context) : Instr → Bool
  | .mode b => b == 0
  | .dict _ => true
  | .lit _ => true
  | .endMark lc extra => endFieldsOk c.table lc extra
  | .pairL0 extra dc low => pairFieldsOk c.table c.dictBits 0 extra dc low
  | .pairL1 extra dc low => pairFieldsOk c.table c.dictBits 1 extra dc low
  | .pairL2 extra dc low => pairFieldsOk c.table c.dictBits 2 extra dc low
  | .pairL3 extra dc low => pairFieldsOk c.table c.dictBits 3 extra dc low
  | .pairL4 extra dc low => pairFieldsOk c.table c.dictBits 4 extra dc low
  | .pairL5 extra dc low => pairFieldsOk c.table c.dictBits 5 extra dc low
  | .pairL6 extra dc low => pairFieldsOk c.table c.dictBits 6 extra dc low
  | .pairL7 extra dc low => pairFieldsOk c.table c.dictBits 7 extra dc low
  | .pairL8 extra dc low => pairFieldsOk c.table c.dictBits 8 extra dc low
  | .pairL9 extra dc low => pairFieldsOk c.table c.dictBits 9 extra dc low
  | .pairL10 extra dc low => pairFieldsOk c.table c.dictBits 10 extra dc low
  | .pairL11 extra dc low => pairFieldsOk c.table c.dictBits 11 extra dc low
  | .pairL12 extra dc low => pairFieldsOk c.table c.dictBits 12 extra dc low
  | .pairL13 extra dc low => pairFieldsOk c.table c.dictBits 13 extra dc low
  | .pairL14 extra dc low => pairFieldsOk c.table c.dictBits 14 extra dc low
  | .pairL15 extra dc low => pairFieldsOk c.table c.dictBits 15 extra dc low
  | .distD0 low => distanceFieldsOk c.table (trailingWidth c.lenVal c.dictBits) 0 low
  | .distD1 low => distanceFieldsOk c.table (trailingWidth c.lenVal c.dictBits) 1 low
  | .distD2 low => distanceFieldsOk c.table (trailingWidth c.lenVal c.dictBits) 2 low
  | .distD3 low => distanceFieldsOk c.table (trailingWidth c.lenVal c.dictBits) 3 low
  | .distD4 low => distanceFieldsOk c.table (trailingWidth c.lenVal c.dictBits) 4 low
  | .distD5 low => distanceFieldsOk c.table (trailingWidth c.lenVal c.dictBits) 5 low
  | .distD6 low => distanceFieldsOk c.table (trailingWidth c.lenVal c.dictBits) 6 low
  | .distD7 low => distanceFieldsOk c.table (trailingWidth c.lenVal c.dictBits) 7 low
  | .distD8 low => distanceFieldsOk c.table (trailingWidth c.lenVal c.dictBits) 8 low
  | .distD9 low => distanceFieldsOk c.table (trailingWidth c.lenVal c.dictBits) 9 low
  | .distD10 low => distanceFieldsOk c.table (trailingWidth c.lenVal c.dictBits) 10 low
  | .distD11 low => distanceFieldsOk c.table (trailingWidth c.lenVal c.dictBits) 11 low
  | .distD12 low => distanceFieldsOk c.table (trailingWidth c.lenVal c.dictBits) 12 low
  | .distD13 low => distanceFieldsOk c.table (trailingWidth c.lenVal c.dictBits) 13 low
  | .distD14 low => distanceFieldsOk c.table (trailingWidth c.lenVal c.dictBits) 14 low
  | .distD15 low => distanceFieldsOk c.table (trailingWidth c.lenVal c.dictBits) 15 low
  | .distD16 low => distanceFieldsOk c.table (trailingWidth c.lenVal c.dictBits) 16 low
  | .distD17 low => distanceFieldsOk c.table (trailingWidth c.lenVal c.dictBits) 17 low
  | .distD18 low => distanceFieldsOk c.table (trailingWidth c.lenVal c.dictBits) 18 low
  | .distD19 low => distanceFieldsOk c.table (trailingWidth c.lenVal c.dictBits) 19 low
  | .distD20 low => distanceFieldsOk c.table (trailingWidth c.lenVal c.dictBits) 20 low
  | .distD21 low => distanceFieldsOk c.table (trailingWidth c.lenVal c.dictBits) 21 low
  | .distD22 low => distanceFieldsOk c.table (trailingWidth c.lenVal c.dictBits) 22 low
  | .distD23 low => distanceFieldsOk c.table (trailingWidth c.lenVal c.dictBits) 23 low
  | .distD24 low => distanceFieldsOk c.table (trailingWidth c.lenVal c.dictBits) 24 low
  | .distD25 low => distanceFieldsOk c.table (trailingWidth c.lenVal c.dictBits) 25 low
  | .distD26 low => distanceFieldsOk c.table (trailingWidth c.lenVal c.dictBits) 26 low
  | .distD27 low => distanceFieldsOk c.table (trailingWidth c.lenVal c.dictBits) 27 low
  | .distD28 low => distanceFieldsOk c.table (trailingWidth c.lenVal c.dictBits) 28 low
  | .distD29 low => distanceFieldsOk c.table (trailingWidth c.lenVal c.dictBits) 29 low
  | .distD30 low => distanceFieldsOk c.table (trailingWidth c.lenVal c.dictBits) 30 low
  | .distD31 low => distanceFieldsOk c.table (trailingWidth c.lenVal c.dictBits) 31 low
  | .distD32 low => distanceFieldsOk c.table (trailingWidth c.lenVal c.dictBits) 32 low
  | .distD33 low => distanceFieldsOk c.table (trailingWidth c.lenVal c.dictBits) 33 low
  | .distD34 low => distanceFieldsOk c.table (trailingWidth c.lenVal c.dictBits) 34 low
  | .distD35 low => distanceFieldsOk c.table (trailingWidth c.lenVal c.dictBits) 35 low
  | .distD36 low => distanceFieldsOk c.table (trailingWidth c.lenVal c.dictBits) 36 low
  | .distD37 low => distanceFieldsOk c.table (trailingWidth c.lenVal c.dictBits) 37 low
  | .distD38 low => distanceFieldsOk c.table (trailingWidth c.lenVal c.dictBits) 38 low
  | .distD39 low => distanceFieldsOk c.table (trailingWidth c.lenVal c.dictBits) 39 low
  | .distD40 low => distanceFieldsOk c.table (trailingWidth c.lenVal c.dictBits) 40 low
  | .distD41 low => distanceFieldsOk c.table (trailingWidth c.lenVal c.dictBits) 41 low
  | .distD42 low => distanceFieldsOk c.table (trailingWidth c.lenVal c.dictBits) 42 low
  | .distD43 low => distanceFieldsOk c.table (trailingWidth c.lenVal c.dictBits) 43 low
  | .distD44 low => distanceFieldsOk c.table (trailingWidth c.lenVal c.dictBits) 44 low
  | .distD45 low => distanceFieldsOk c.table (trailingWidth c.lenVal c.dictBits) 45 low
  | .distD46 low => distanceFieldsOk c.table (trailingWidth c.lenVal c.dictBits) 46 low
  | .distD47 low => distanceFieldsOk c.table (trailingWidth c.lenVal c.dictBits) 47 low
  | .distD48 low => distanceFieldsOk c.table (trailingWidth c.lenVal c.dictBits) 48 low
  | .distD49 low => distanceFieldsOk c.table (trailingWidth c.lenVal c.dictBits) 49 low
  | .distD50 low => distanceFieldsOk c.table (trailingWidth c.lenVal c.dictBits) 50 low
  | .distD51 low => distanceFieldsOk c.table (trailingWidth c.lenVal c.dictBits) 51 low
  | .distD52 low => distanceFieldsOk c.table (trailingWidth c.lenVal c.dictBits) 52 low
  | .distD53 low => distanceFieldsOk c.table (trailingWidth c.lenVal c.dictBits) 53 low
  | .distD54 low => distanceFieldsOk c.table (trailingWidth c.lenVal c.dictBits) 54 low
  | .distD55 low => distanceFieldsOk c.table (trailingWidth c.lenVal c.dictBits) 55 low
  | .distD56 low => distanceFieldsOk c.table (trailingWidth c.lenVal c.dictBits) 56 low
  | .distD57 low => distanceFieldsOk c.table (trailingWidth c.lenVal c.dictBits) 57 low
  | .distD58 low => distanceFieldsOk c.table (trailingWidth c.lenVal c.dictBits) 58 low
  | .distD59 low => distanceFieldsOk c.table (trailingWidth c.lenVal c.dictBits) 59 low
  | .distD60 low => distanceFieldsOk c.table (trailingWidth c.lenVal c.dictBits) 60 low
  | .distD61 low => distanceFieldsOk c.table (trailingWidth c.lenVal c.dictBits) 61 low
  | .distD62 low => distanceFieldsOk c.table (trailingWidth c.lenVal c.dictBits) 62 low
  | .distD63 low => distanceFieldsOk c.table (trailingWidth c.lenVal c.dictBits) 63 low
  | .isEnded => true
  | .processChunk _ => true
  | .reset => true
  | .new table => table.wf

end Sys2Proof
end

