-- ==== Sys2Proof/Decode.lean ====
section
/-!
DEFINITION. The decoder and the encoder. First the Symbol Decoder (R121) on a bit window, to a symbol and to an
instruction; then the header bytes (R91, R92) and the command records (R38); then the encoder, written from the same
formats (R94 to R98, R103, R113); last the bare words of spec/opcode_table.json.

Every bit pattern decodes (R102); the one refusal of the Symbol Decoder is `needBits` (R126).
-/

namespace Sys2Proof

/-- The `n`-bit field of `v` that starts at bit `lo` (R8). -/
def field (v lo n : Nat) : Nat := v / 2 ^ lo % 2 ^ n

/-- The length part of a class 1 symbol (R123). -/
structure LengthPart where
  /-- Length code index `lc`. -/
  code : Nat
  /-- Value of the extra-bits field. -/
  extra : Nat
  /-- The length value, before the offset of 2. -/
  val : Nat
  /-- Bits of class, code and extra. -/
  used : Nat
  deriving DecidableEq, Repr

/-- R123: the 8-bit index is always bits 8 to 1, whatever the code's width. -/
def lengthPart (T : CodeTable) (win : Nat) : LengthPart :=
  let lc := T.lenLookupAt (field win 1 8)
  let extra := field win (1 + T.lenBitsAt lc) (T.lenExtraBitsAt lc)
  { code := lc, extra := extra, val := lengthValue T lc extra, used := lengthUsed T lc }

/-- The distance part of a pair (R125): what the decoder returns for it, with the fields it was read from. -/
structure DistancePart where
  /-- Distance code index `dc`. -/
  code : Nat
  /-- Value of the trailing field. -/
  low : Nat
  /-- The exact distance. -/
  distance : Nat
  /-- The length of the pair. -/
  length : Nat
  /-- Bits of the whole pair. -/
  used : Nat
  deriving DecidableEq, Repr

/-- The distance part of the pair whose length part is `len`, for a given code and trailing field (R98, R125). -/
def distanceResult (T : CodeTable) (dictBits : Nat) (len : LengthPart) (dc low : Nat) : DistancePart :=
  let tw := trailingWidth len.val dictBits
  { code := dc, low := low, distance := pairDistance dc tw low, length := pairLength len.val,
    used := len.used + distanceUsed T dc tw }

/-- R125: the distance code and the trailing field are read from the window behind the length part. -/
def distancePart (T : CodeTable) (dictBits win : Nat) (len : LengthPart) : DistancePart :=
  let dc := T.distLookupAt (field win len.used 8)
  let low := field win (len.used + T.distBitsAt dc) (trailingWidth len.val dictBits)
  distanceResult T dictBits len dc low

/-- The result of the Symbol Decoder (R12, R120). -/
inductive DecodeResult (α : Type) where
  /-- `Sym(symbol, used)`. -/
  | sym (a : α) (used : Nat)
  /-- `NeedBits(n)`. -/
  | needBits (n : Nat)
  deriving DecidableEq, Repr

/-- The one comparison of R126, made after the whole speculative decode. -/
def checkBits {α : Type} (nbits used : Nat) (a : α) : DecodeResult α :=
  if used > nbits then .needBits (used - nbits) else .sym a used

/-- R121, for any answer built from the symbol's fields: class bit, literal or length part, END comparison, distance
part, and the one check of R126 at the end. `win` is any natural, bits of it at or above `nbits` included (R127). -/
def decodeWith {α : Type} (onLiteral : Byte → α) (onEnd : LengthPart → α) (onPair : LengthPart → DistancePart → α)
    (win nbits : Nat) (T : CodeTable) (dictBits : Nat) : DecodeResult α :=
  if field win 0 1 = 0 then
    checkBits nbits literalUsed (onLiteral (BitVec.ofNat 8 (field win 1 8)))
  else
    let len := lengthPart T win
    if len.val = T.endValue then
      checkBits nbits len.used (onEnd len)
    else
      let dist := distancePart T dictBits win len
      checkBits nbits dist.used (onPair len dist)

/-- `Decode(win, nbits, T, dict_bits)` (R121): the symbol. -/
def decode (win nbits : Nat) (T : CodeTable) (dictBits : Nat) : DecodeResult Symbol :=
  decodeWith .literal (fun _ => .endMark) (fun _ dist => .pair dist.distance dist.length) win nbits T dictBits

/-- The same decode, to the instruction of the opcode table with its fields (R111, last sentences). -/
def decodeInstr (win nbits : Nat) (T : CodeTable) (dictBits : Nat) : DecodeResult Instr :=
  decodeWith .lit (fun len => .endMark len.code len.extra)
    (fun len dist => .ofPair len.code len.extra dist.code dist.low) win nbits T dictBits

/-- The same decode, to the instruction a loop iteration runs first: a literal and the end marker whole; of a pair its
distance part (R125 returns before R155 applies the pair; log 7). -/
def decodeStage (win nbits : Nat) (T : CodeTable) (dictBits : Nat) : DecodeResult Instr :=
  decodeWith .lit (fun len => .endMark len.code len.extra) (fun _ dist => .ofDist dist.code dist.low)
    win nbits T dictBits

/-- A distance sub-field on its own: window bit 0 is the first bit after the length part (R111). The spec decodes one
only inside its pair, where the check of R126 covers it; here the window has no `nbits`, missing bits read 0 and the
answer is never `NeedBits`. No step uses it (DESIGN CHOICE, safe, log 20). -/
def decodeDistance (c : Context) (win : Nat) : Instr :=
  let dc := c.table.distLookupAt (field win 0 8)
  .ofDist dc (field win (c.table.distBitsAt dc) (trailingWidth c.lenVal c.dictBits))

/-- The command of a command record (R38): 0 IS_ENDED, 1 PROCESS_CHUNK, 2 RESET, 3 NEW. -/
def decodeCommand (r : CommandRecord) : Instr :=
  if r.cmd = 0 then .isEnded
  else if r.cmd = 1 then .processChunk r.chunk
  else if r.cmd = 2 then .reset
  else .new r.table

/-! The encoder. -/

/-- A run of stream bits: `width` bits, bit 0 of `value` first (R8, R70). -/
structure Bits where
  value : Nat
  width : Nat
  deriving DecidableEq, Repr

/-- Bits in stream order: `b` follows `a`. -/
def Bits.append (a b : Bits) : Bits := { value := a.value + b.value * 2 ^ a.width, width := a.width + b.width }

/-- The pattern of a code: the low bits of the first byte whose lookup entry it is (R103 read backwards; the
CodeTable stores no pattern a rule reads, R41). DEDUCED, safe (log 11). -/
def codePattern (lookup : List Nat) (code width : Nat) : Nat := lookup.idxOf code % 2 ^ width

/-- A literal: `byte << 1` (R94). -/
def encodeLiteral (b : Byte) : Bits := { value := b.toNat * 2, width := literalUsed }

/-- Class bit 1, code pattern, extra bits (R95 fields 1 to 3, R96, R113). -/
def encodeLength (T : CodeTable) (lc extra : Nat) : Bits :=
  let w := T.lenBitsAt lc
  { value := 1 + codePattern T.lenLookup lc w * 2 + extra * 2 ^ (1 + w), width := lengthUsed T lc }

/-- Distance code pattern and trailing field of width `tw` (R95 fields 4 and 5, R113). -/
def encodeDistance (T : CodeTable) (tw dc low : Nat) : Bits :=
  let dw := T.distBitsAt dc
  { value := codePattern T.distLookup dc dw + low * 2 ^ dw, width := distanceUsed T dc tw }

/-- A whole pair (R95, R113). -/
def encodePair (c : Context) (lc extra dc low : Nat) : Bits :=
  (encodeLength c.table lc extra).append
    (encodeDistance c.table (trailingWidth (lengthValue c.table lc extra) c.dictBits) dc low)

/-- The word spaces of the opcode table (R111): its words mean nothing before one says which space they lie in. -/
inductive Space where
  | modeByte
  | dictByte
  | symbol
  | distance
  | command
  deriving DecidableEq, Repr

/-- An encoded instruction: a header byte (R72), stream bits (R70), or a command record (R38). -/
inductive Encoding where
  | byte (b : Byte)
  | bits (b : Bits)
  | record (r : CommandRecord)
  deriving DecidableEq, Repr

/-- A command record with no operand; a field its command does not read is empty or the context's table. -/
def bareRecord (c : Context) (cmd : BitVec 2) : Encoding := .record { cmd := cmd, chunk := [], table := c.table }

/-- The space an instruction's word lies in. -/
def Instr.space : Instr → Space
  | .mode _ => .modeByte
  | .dict _ => .dictByte
  | .lit _ => .symbol
  | .endMark _ _ => .symbol
  | .pairL0 _ _ _ => .symbol
  | .pairL1 _ _ _ => .symbol
  | .pairL2 _ _ _ => .symbol
  | .pairL3 _ _ _ => .symbol
  | .pairL4 _ _ _ => .symbol
  | .pairL5 _ _ _ => .symbol
  | .pairL6 _ _ _ => .symbol
  | .pairL7 _ _ _ => .symbol
  | .pairL8 _ _ _ => .symbol
  | .pairL9 _ _ _ => .symbol
  | .pairL10 _ _ _ => .symbol
  | .pairL11 _ _ _ => .symbol
  | .pairL12 _ _ _ => .symbol
  | .pairL13 _ _ _ => .symbol
  | .pairL14 _ _ _ => .symbol
  | .pairL15 _ _ _ => .symbol
  | .distD0 _ => .distance
  | .distD1 _ => .distance
  | .distD2 _ => .distance
  | .distD3 _ => .distance
  | .distD4 _ => .distance
  | .distD5 _ => .distance
  | .distD6 _ => .distance
  | .distD7 _ => .distance
  | .distD8 _ => .distance
  | .distD9 _ => .distance
  | .distD10 _ => .distance
  | .distD11 _ => .distance
  | .distD12 _ => .distance
  | .distD13 _ => .distance
  | .distD14 _ => .distance
  | .distD15 _ => .distance
  | .distD16 _ => .distance
  | .distD17 _ => .distance
  | .distD18 _ => .distance
  | .distD19 _ => .distance
  | .distD20 _ => .distance
  | .distD21 _ => .distance
  | .distD22 _ => .distance
  | .distD23 _ => .distance
  | .distD24 _ => .distance
  | .distD25 _ => .distance
  | .distD26 _ => .distance
  | .distD27 _ => .distance
  | .distD28 _ => .distance
  | .distD29 _ => .distance
  | .distD30 _ => .distance
  | .distD31 _ => .distance
  | .distD32 _ => .distance
  | .distD33 _ => .distance
  | .distD34 _ => .distance
  | .distD35 _ => .distance
  | .distD36 _ => .distance
  | .distD37 _ => .distance
  | .distD38 _ => .distance
  | .distD39 _ => .distance
  | .distD40 _ => .distance
  | .distD41 _ => .distance
  | .distD42 _ => .distance
  | .distD43 _ => .distance
  | .distD44 _ => .distance
  | .distD45 _ => .distance
  | .distD46 _ => .distance
  | .distD47 _ => .distance
  | .distD48 _ => .distance
  | .distD49 _ => .distance
  | .distD50 _ => .distance
  | .distD51 _ => .distance
  | .distD52 _ => .distance
  | .distD53 _ => .distance
  | .distD54 _ => .distance
  | .distD55 _ => .distance
  | .distD56 _ => .distance
  | .distD57 _ => .distance
  | .distD58 _ => .distance
  | .distD59 _ => .distance
  | .distD60 _ => .distance
  | .distD61 _ => .distance
  | .distD62 _ => .distance
  | .distD63 _ => .distance
  | .isEnded => .command
  | .processChunk _ => .command
  | .reset => .command
  | .new _ => .command

/-- The encoding of an instruction in a context. -/
def encode (c : Context) : Instr → Encoding
  | .mode b => .byte b
  | .dict b => .byte b
  | .lit b => .bits (encodeLiteral b)
  | .endMark lc extra => .bits (encodeLength c.table lc extra)
  | .pairL0 extra dc low => .bits (encodePair c 0 extra dc low)
  | .pairL1 extra dc low => .bits (encodePair c 1 extra dc low)
  | .pairL2 extra dc low => .bits (encodePair c 2 extra dc low)
  | .pairL3 extra dc low => .bits (encodePair c 3 extra dc low)
  | .pairL4 extra dc low => .bits (encodePair c 4 extra dc low)
  | .pairL5 extra dc low => .bits (encodePair c 5 extra dc low)
  | .pairL6 extra dc low => .bits (encodePair c 6 extra dc low)
  | .pairL7 extra dc low => .bits (encodePair c 7 extra dc low)
  | .pairL8 extra dc low => .bits (encodePair c 8 extra dc low)
  | .pairL9 extra dc low => .bits (encodePair c 9 extra dc low)
  | .pairL10 extra dc low => .bits (encodePair c 10 extra dc low)
  | .pairL11 extra dc low => .bits (encodePair c 11 extra dc low)
  | .pairL12 extra dc low => .bits (encodePair c 12 extra dc low)
  | .pairL13 extra dc low => .bits (encodePair c 13 extra dc low)
  | .pairL14 extra dc low => .bits (encodePair c 14 extra dc low)
  | .pairL15 extra dc low => .bits (encodePair c 15 extra dc low)
  | .distD0 low => .bits (encodeDistance c.table (trailingWidth c.lenVal c.dictBits) 0 low)
  | .distD1 low => .bits (encodeDistance c.table (trailingWidth c.lenVal c.dictBits) 1 low)
  | .distD2 low => .bits (encodeDistance c.table (trailingWidth c.lenVal c.dictBits) 2 low)
  | .distD3 low => .bits (encodeDistance c.table (trailingWidth c.lenVal c.dictBits) 3 low)
  | .distD4 low => .bits (encodeDistance c.table (trailingWidth c.lenVal c.dictBits) 4 low)
  | .distD5 low => .bits (encodeDistance c.table (trailingWidth c.lenVal c.dictBits) 5 low)
  | .distD6 low => .bits (encodeDistance c.table (trailingWidth c.lenVal c.dictBits) 6 low)
  | .distD7 low => .bits (encodeDistance c.table (trailingWidth c.lenVal c.dictBits) 7 low)
  | .distD8 low => .bits (encodeDistance c.table (trailingWidth c.lenVal c.dictBits) 8 low)
  | .distD9 low => .bits (encodeDistance c.table (trailingWidth c.lenVal c.dictBits) 9 low)
  | .distD10 low => .bits (encodeDistance c.table (trailingWidth c.lenVal c.dictBits) 10 low)
  | .distD11 low => .bits (encodeDistance c.table (trailingWidth c.lenVal c.dictBits) 11 low)
  | .distD12 low => .bits (encodeDistance c.table (trailingWidth c.lenVal c.dictBits) 12 low)
  | .distD13 low => .bits (encodeDistance c.table (trailingWidth c.lenVal c.dictBits) 13 low)
  | .distD14 low => .bits (encodeDistance c.table (trailingWidth c.lenVal c.dictBits) 14 low)
  | .distD15 low => .bits (encodeDistance c.table (trailingWidth c.lenVal c.dictBits) 15 low)
  | .distD16 low => .bits (encodeDistance c.table (trailingWidth c.lenVal c.dictBits) 16 low)
  | .distD17 low => .bits (encodeDistance c.table (trailingWidth c.lenVal c.dictBits) 17 low)
  | .distD18 low => .bits (encodeDistance c.table (trailingWidth c.lenVal c.dictBits) 18 low)
  | .distD19 low => .bits (encodeDistance c.table (trailingWidth c.lenVal c.dictBits) 19 low)
  | .distD20 low => .bits (encodeDistance c.table (trailingWidth c.lenVal c.dictBits) 20 low)
  | .distD21 low => .bits (encodeDistance c.table (trailingWidth c.lenVal c.dictBits) 21 low)
  | .distD22 low => .bits (encodeDistance c.table (trailingWidth c.lenVal c.dictBits) 22 low)
  | .distD23 low => .bits (encodeDistance c.table (trailingWidth c.lenVal c.dictBits) 23 low)
  | .distD24 low => .bits (encodeDistance c.table (trailingWidth c.lenVal c.dictBits) 24 low)
  | .distD25 low => .bits (encodeDistance c.table (trailingWidth c.lenVal c.dictBits) 25 low)
  | .distD26 low => .bits (encodeDistance c.table (trailingWidth c.lenVal c.dictBits) 26 low)
  | .distD27 low => .bits (encodeDistance c.table (trailingWidth c.lenVal c.dictBits) 27 low)
  | .distD28 low => .bits (encodeDistance c.table (trailingWidth c.lenVal c.dictBits) 28 low)
  | .distD29 low => .bits (encodeDistance c.table (trailingWidth c.lenVal c.dictBits) 29 low)
  | .distD30 low => .bits (encodeDistance c.table (trailingWidth c.lenVal c.dictBits) 30 low)
  | .distD31 low => .bits (encodeDistance c.table (trailingWidth c.lenVal c.dictBits) 31 low)
  | .distD32 low => .bits (encodeDistance c.table (trailingWidth c.lenVal c.dictBits) 32 low)
  | .distD33 low => .bits (encodeDistance c.table (trailingWidth c.lenVal c.dictBits) 33 low)
  | .distD34 low => .bits (encodeDistance c.table (trailingWidth c.lenVal c.dictBits) 34 low)
  | .distD35 low => .bits (encodeDistance c.table (trailingWidth c.lenVal c.dictBits) 35 low)
  | .distD36 low => .bits (encodeDistance c.table (trailingWidth c.lenVal c.dictBits) 36 low)
  | .distD37 low => .bits (encodeDistance c.table (trailingWidth c.lenVal c.dictBits) 37 low)
  | .distD38 low => .bits (encodeDistance c.table (trailingWidth c.lenVal c.dictBits) 38 low)
  | .distD39 low => .bits (encodeDistance c.table (trailingWidth c.lenVal c.dictBits) 39 low)
  | .distD40 low => .bits (encodeDistance c.table (trailingWidth c.lenVal c.dictBits) 40 low)
  | .distD41 low => .bits (encodeDistance c.table (trailingWidth c.lenVal c.dictBits) 41 low)
  | .distD42 low => .bits (encodeDistance c.table (trailingWidth c.lenVal c.dictBits) 42 low)
  | .distD43 low => .bits (encodeDistance c.table (trailingWidth c.lenVal c.dictBits) 43 low)
  | .distD44 low => .bits (encodeDistance c.table (trailingWidth c.lenVal c.dictBits) 44 low)
  | .distD45 low => .bits (encodeDistance c.table (trailingWidth c.lenVal c.dictBits) 45 low)
  | .distD46 low => .bits (encodeDistance c.table (trailingWidth c.lenVal c.dictBits) 46 low)
  | .distD47 low => .bits (encodeDistance c.table (trailingWidth c.lenVal c.dictBits) 47 low)
  | .distD48 low => .bits (encodeDistance c.table (trailingWidth c.lenVal c.dictBits) 48 low)
  | .distD49 low => .bits (encodeDistance c.table (trailingWidth c.lenVal c.dictBits) 49 low)
  | .distD50 low => .bits (encodeDistance c.table (trailingWidth c.lenVal c.dictBits) 50 low)
  | .distD51 low => .bits (encodeDistance c.table (trailingWidth c.lenVal c.dictBits) 51 low)
  | .distD52 low => .bits (encodeDistance c.table (trailingWidth c.lenVal c.dictBits) 52 low)
  | .distD53 low => .bits (encodeDistance c.table (trailingWidth c.lenVal c.dictBits) 53 low)
  | .distD54 low => .bits (encodeDistance c.table (trailingWidth c.lenVal c.dictBits) 54 low)
  | .distD55 low => .bits (encodeDistance c.table (trailingWidth c.lenVal c.dictBits) 55 low)
  | .distD56 low => .bits (encodeDistance c.table (trailingWidth c.lenVal c.dictBits) 56 low)
  | .distD57 low => .bits (encodeDistance c.table (trailingWidth c.lenVal c.dictBits) 57 low)
  | .distD58 low => .bits (encodeDistance c.table (trailingWidth c.lenVal c.dictBits) 58 low)
  | .distD59 low => .bits (encodeDistance c.table (trailingWidth c.lenVal c.dictBits) 59 low)
  | .distD60 low => .bits (encodeDistance c.table (trailingWidth c.lenVal c.dictBits) 60 low)
  | .distD61 low => .bits (encodeDistance c.table (trailingWidth c.lenVal c.dictBits) 61 low)
  | .distD62 low => .bits (encodeDistance c.table (trailingWidth c.lenVal c.dictBits) 62 low)
  | .distD63 low => .bits (encodeDistance c.table (trailingWidth c.lenVal c.dictBits) 63 low)
  | .isEnded => bareRecord c 0
  | .processChunk chunk => .record { cmd := 1, chunk := chunk, table := c.table }
  | .reset => bareRecord c 2
  | .new table => .record { cmd := 3, chunk := [], table := table }

/-- Decoding in a space: `none` where the encoding is none of the space's, or where a symbol's bits are not all there
(R126); a distance sub-field is read whatever the width of its bits (log 20). -/
def decodeIn (c : Context) : Space → Encoding → Option Instr
  | .modeByte, .byte b => some (.mode b)
  | .dictByte, .byte b => some (.dict b)
  | .symbol, .bits b =>
    match decodeInstr b.value b.width c.table c.dictBits with
    | .sym i _ => some i
    | .needBits _ => none
  | .distance, .bits b => some (decodeDistance c b.value)
  | .command, .record r => some (decodeCommand r)
  | _, _ => none

/-- The bytes of a run of bits, first byte first, the last one padded with zeros (R70, R113). -/
def bytesOf : Nat → Nat → List Byte
  | 0, _ => []
  | n + 1, v => BitVec.ofNat 8 v :: bytesOf n (v / 256)

/-- The bits of a list of symbols, one after the other with no padding between them (R90, R113). -/
def streamBits (c : Context) (items : List Instr) : Bits :=
  items.foldl (fun acc i => match encode c i with | .bits b => acc.append b | _ => acc) { value := 0, width := 0 }

/-- A whole stream: mode byte, dictionary byte, symbols (R90, R112, R113). -/
def assemble (T : CodeTable) (mode dict : Byte) (items : List Instr) : List Byte :=
  let b := streamBits { table := T, dictBits := dict.toNat, lenVal := 1 } items
  mode :: dict :: bytesOf ((b.width + 7) / 8) b.value

/-! Assembling symbols (R113). -/

/-- Length code and extra bits of a length value (R113): the first code whose value, or range of values, it is. With the
standard table that is the value itself below 8 and the code 8 to 15 whose range holds it otherwise, and no two codes
share a value (R114). R113 is for the standard table: that another table takes the first of several codes, and that no
later one is tried where no lookup entry names the first, is the model's (DESIGN CHOICE, safe, log 22). -/
def lengthFieldsOf (T : CodeTable) (val : Nat) : Option (Nat × Nat) :=
  ((List.range 16).find? fun lc =>
      if T.lenExtraBitsAt lc = 0 then val == lc
      else decide (T.lenAddendAt lc ≤ val) && decide (val < T.lenAddendAt lc + 2 ^ T.lenExtraBitsAt lc)).map fun lc =>
    (lc, if T.lenExtraBitsAt lc = 0 then 0 else val - T.lenAddendAt lc)

/-- The fields R113 computes for a symbol: `val = l - 2`, `dc = (d - 1) >> tw` (must be below 64),
`low = (d - 1) mod 2^tw`. -/
def symbolFields (c : Context) : Symbol → Option Instr
  | .literal b => some (.lit b)
  | .endMark => (lengthFieldsOf c.table c.table.endValue).map fun f => .endMark f.1 f.2
  | .pair d l =>
    let tw := trailingWidth (l - 2) c.dictBits
    if d = 0 ∨ l < 2 ∨ 64 ≤ (d - 1) >>> tw then none
    else (lengthFieldsOf c.table (l - 2)).map fun f => .ofPair f.1 f.2 ((d - 1) >>> tw) ((d - 1) % 2 ^ tw)

/-- The instruction of a symbol (R113). `none` where the table has no encoding for it: a distance too large, the length
that the END sentinel stands for, a code that no lookup entry names (of several length codes for the value the first
alone is tried: DESIGN CHOICE, safe, log 22). -/
def instrOf (c : Context) (sym : Symbol) : Option Instr := (symbolFields c sym).filter (Instr.wf c)

/-- A whole stream from its symbols (R113, the `.dict` line and the symbol lines). -/
def assembleSymbols (T : CodeTable) (mode dict : Byte) (symbols : List Symbol) : Option (List Byte) :=
  (symbols.mapM (instrOf { table := T, dictBits := dict.toNat, lenVal := 1 })).map (assemble T mode dict)

/-! The bare words of the opcode table. -/

/-- The context in which a bare word is read: the standard table, `dict_bits` 6, a pair whose length value is not 0.
DESIGN CHOICE, safe (log 14). -/
def tableContext : Context := { table := standardTable, dictBits := 6, lenVal := 1 }

/-- The space a bare word is read in. The table's spaces overlap and a bare word does not say its own; more than eight
bits, or an odd byte, is read as a symbol; the byte 0 as the mode byte, the first thing fetched after reset; another
even byte as a distance sub-field. DESIGN CHOICE, safe (log 14). -/
def tableSpace (nbits w : Nat) : Space :=
  if nbits > 8 then .symbol
  else if w % 2 = 1 then .symbol
  else if w % 256 = 0 then .modeByte
  else .distance

/-- The bits of a bare word and zeros above them, as long as the accumulator (R6, R111). -/
def tableBits (nbits w : Nat) : Bits := { value := w % 2 ^ nbits, width := 64 }

/-- The instruction the decoder reads from a bare word of the opcode table. -/
def decodeTableWord (nbits w : Nat) : Option Instr :=
  match tableSpace nbits w with
  | .modeByte => decodeIn tableContext .modeByte (.byte (BitVec.ofNat 8 w))
  | .dictByte => decodeIn tableContext .dictByte (.byte (BitVec.ofNat 8 w))
  | .symbol => decodeIn tableContext .symbol (.bits (tableBits nbits w))
  | .distance => decodeIn tableContext .distance (.bits (tableBits nbits w))
  | .command => none

end Sys2Proof
end

