-- ==== Sys2Proof/Machine/State.lean ====
section
/-!
DEFINITION. The machine's state (R21, R43), the host's records (R38 to R40), the configuration of a PROCESS_CHUNK in
progress (R182), the reasons a step can stop, and the state after reset (R231).
-/

namespace Sys2Proof.Machine

/-- The field `fault_code` (R21): 0 NONE, 1 UNSUPPORTED_MODE, 2 DISTANCE_RANGE; the fourth code does not exist. -/
inductive FaultCode where
  | none
  | unsupportedMode
  | distanceRange
  deriving DecidableEq, Repr

/-- The field `status` of the response (R39): 0 OK, 1 NEED_MODE, 2 NEED_DICT_BITS, 3 FATAL. -/
inductive Status where
  | ok
  | needMode
  | needDictBits
  | fatal
  deriving DecidableEq, Repr

/-- The field `stop` of the response (R39): 0 NONE, 1 NEED_BITS, 2 HALF_FULL, 3 END. -/
inductive Stop where
  | none
  | needBits
  | halfFull
  | ended
  deriving DecidableEq, Repr

/-- The response record of PROCESS_CHUNK (R39). `consumed` is as wide as CHUNK_MAX asks, here unbounded (log 10). -/
structure Response where
  status : Status
  faultCode : FaultCode
  stop : Stop
  consumed : Nat
  outOff : BitVec 13
  outLen : BitVec 13
  deriving DecidableEq, Repr

/-- The stop reason of the command in progress (R174, R176): NONE while it goes on, else why its loop ended. -/
inductive Reason where
  | none
  | needBits
  | halfFull
  | ended
  | fault
  deriving DecidableEq, Repr

/-- The part of R174 that comes next. The MODEL's own (R182; log 6). -/
inductive Phase where
  /-- No command is in progress: the block waits for one (R218). -/
  | idle
  /-- Step 1, header outstanding: the mode byte comes next (R141). -/
  | modeByte
  /-- Step 1, mode byte accepted: the dictionary byte comes next (R142). -/
  | dictByte
  /-- Step 2: deferred swap, latch of the slice start, resumed copy (R150, R161). -/
  | swap
  /-- Step 3: the decode loop (R176). -/
  | loop
  deriving DecidableEq, Repr

/-- The whole state of one decoder instance and its host port. -/
structure State where
  /-- Active-half selector (R22). -/
  offsXor : BitVec 13
  /-- Write cursor, a logical coordinate; 8192 means full (R23). -/
  writeOffs : BitVec 14
  /-- Bit accumulator, bit 0 the next undecoded bit (R24). -/
  acc : BitVec 64
  /-- Number of valid bits in `acc` (R25). -/
  nbits : BitVec 7
  /-- Bytes of a back-reference copy still to be written (R26). -/
  remainingLen : BitVec 16
  /-- Logical coordinate of the next source byte of that copy (R27). -/
  currentOffs : BitVec 13
  /-- The second header byte, unchanged (R28). -/
  dictBits : BitVec 8
  /-- The mode byte has not been consumed (R32). -/
  needMode : Bool
  /-- The dictionary byte has not been consumed (R33). -/
  needDict : Bool
  /-- The active half is full and the swap is deferred (R34). -/
  swapPending : Bool
  /-- The END symbol has been applied (R35). -/
  ended : Bool
  /-- A fatal condition was raised (R36). -/
  fatal : Bool
  /-- Which fatal condition (R36). -/
  faultCode : FaultCode
  /-- Input position `total_in` (R30): chunk bytes consumed by all PROCESS_CHUNK commands since the last NEW or RESET, the
  sum of their `consumed`. A ghost value a model keeps (R218, R233). -/
  totalIn : Nat
  /-- Output position `total_out` (R31): bytes written since the last NEW or RESET. A ghost value that the spec gives a
  model to tell a byte of an earlier stream from one of this stream (R82; log 1). -/
  totalOut : Nat
  /-- The window RAM by physical address (R60): the bytes some command has written, addresses rising; see `memRead`
  for a byte nothing has written (log 1). -/
  window : List Host.Cell
  /-- The CodeTable bound at NEW (R41, R171). -/
  table : CodeTable
  /-- Which instance's power-on contents the unwritten bytes have. The MODEL's own (log 2). -/
  draw : Nat
  /-- The command records the host is going to present, the next one first (R38; log 4). -/
  port : List CommandRecord
  /-- The response record while it is valid (R39; log 5). -/
  response : Option Response
  /-- The answer of IS_ENDED while it is the last command (R40; log 5). -/
  answer : Option Bool
  /-- The part of PROCESS_CHUNK that comes next. The MODEL's own, as the fields below (R182; log 6). -/
  phase : Phase
  /-- The chunk `in` of the command in progress (R174). -/
  chunk : List Byte
  /-- Position in the chunk (R174). -/
  pos : Nat
  /-- The write cursor after the deferred swap (R174, R178). -/
  start : BitVec 14
  /-- The stop reason (R174). -/
  reason : Reason
  /-- The distance part of the symbol in decoding, returned but not yet applied (R125; log 7). -/
  decoded : Option DistancePart
  deriving DecidableEq, Repr

/-- Why the machine stops with a fault. The spec has no such condition: its fatal conditions are taken (R206). -/
inductive Fault where
  /-- Raised by DIST.D0 to DIST.D63 executed where the window holds no pair: "sub-field of PAIR, not a symbol of its
  own" (R111), so it has no effect there. Safe: no run from reset meets it, only an instruction given to `exec` by
  hand (log 8). -/
  | distanceOutsidePair
  deriving DecidableEq, Repr

/-- Why the machine refuses. -/
inductive Refusal where
  /-- Raised by an arm of exec for an instruction that has no meaning yet. Safe. No arm does. -/
  | notModelled (mnemonic : String)
  /-- Raised by NEW with a table that is not well-formed: "the command is refused", no instance exists (R171, R209).
  Safe (log 9). -/
  | malformedTable
  /-- Raised by a command executed while a PROCESS_CHUNK is in progress: "Two commands must never overlap" (R240).
  Safe: the step takes a command only when none is in progress (log 9). -/
  | commandOverlap
  deriving DecidableEq, Repr

/-- The state right after reset: NEW with the standard table (R6, R230, R231), nothing written to the window, no
command presented yet. The host records and the MODEL's own fields have the values of logs 2 to 7. -/
def State.reset : State where
  offsXor := 0
  writeOffs := 4096
  acc := 0
  nbits := 0
  remainingLen := 0
  currentOffs := 0
  dictBits := 0
  needMode := true
  needDict := true
  swapPending := false
  ended := false
  fatal := false
  faultCode := .none
  totalIn := 0
  totalOut := 0
  window := []
  table := standardTable
  draw := 0
  port := []
  response := none
  answer := none
  phase := .idle
  chunk := []
  pos := 0
  start := 0
  reason := .none
  decoded := none

end Sys2Proof.Machine
end

