-- ==== Sys2Proof/Machine/Flags.lean ====
section
/-!
DEFINITION. The flag bits (R32 to R36) and the codes of the host records (R21, R39).
-/

namespace Sys2Proof.Machine

/-- The 2-bit number of a fault code (R21). -/
def FaultCode.code : FaultCode → BitVec 2
  | .none => 0
  | .unsupportedMode => 1
  | .distanceRange => 2

/-- The 2-bit number of a status (R39). -/
def Status.code : Status → BitVec 2
  | .ok => 0
  | .needMode => 1
  | .needDictBits => 2
  | .fatal => 3

/-- The 2-bit number of a stop (R39). -/
def Stop.code : Stop → BitVec 2
  | .none => 0
  | .needBits => 1
  | .halfFull => 2
  | .ended => 3

/-- The stop a loop that ended for this reason reports (R174): NONE for a fault. -/
def Reason.stop : Reason → Stop
  | .none => .none
  | .needBits => .needBits
  | .halfFull => .halfFull
  | .ended => .ended
  | .fault => .none

/-- A header byte is outstanding (R140). -/
def State.headerOutstanding (s : State) : Bool := s.needMode || s.needDict

/-- The active half is full (R23, R176). -/
def State.full (s : State) : Bool := s.writeOffs == 8192

/-- The loop stops for want of bits; nothing else changes (R176, R204). -/
def stopNeedBits (s : State) : State := { s with reason := .needBits }

/-- The loop stops with the half full: the swap is deferred (R34, R176, R205). -/
def stopHalfFull (s : State) : State := { s with swapPending := true, reason := .halfFull }

/-- The END symbol ends the stream and the loop (R35, R157). -/
def stopEnded (s : State) : State := { s with ended := true, reason := .ended }

/-- The header flags are cleared together (R32, R33, R144). -/
def clearHeader (s : State) : State := { s with needMode := false, needDict := false }

end Sys2Proof.Machine
end

