-- ==== Sys2Proof/Machine/Ops.lean ====
section
/-!
DEFINITION. The shared operations: the window RAM (R60 to R66), the bit accumulator (R153, R158), the deferred swap
(R150), the copy engine (R152), raising a fatal condition and what clears one (R206, R213), the response (R39, R174
step 5) and the host's view of the output (R77).
-/

namespace Sys2Proof.Machine

/-! The window RAM: a list of cells. -/

/-- The byte listed at an address; `none` where nothing has written. -/
def cellRead : List Host.Cell → Nat → Option Byte
  | [], _ => none
  | cell :: rest, p => if p = cell.1 then some cell.2 else cellRead rest p

/-- Store a byte, keeping the addresses rising. -/
def cellWrite : List Host.Cell → Nat → Byte → List Host.Cell
  | [], p, b => [(p, b)]
  | cell :: rest, p, b =>
    if p < cell.1 then (p, b) :: cell :: rest
    else if p = cell.1 then (p, b) :: rest
    else cell :: cellWrite rest p b

/-- The canonical form: addresses strictly rising and inside the RAM (R60). An unlisted address has no byte of its own
(log 1), so no listed byte can repeat what an unlisted address reads as. -/
def Memory.wf : List Host.Cell → Bool
  | [] => true
  | [cell] => decide (cell.1 < 8192)
  | cell :: next :: rest => decide (cell.1 < next.1) && Memory.wf (next :: rest)

/-- `MemRead(p, 1)` (R11, R64), the content of the RAM: the byte last written there by any command; where nothing has
written since power-on, the free value (R82, U7). Reading is no fault and leaves no trace (R75). Safe (log 1). -/
def windowByte (draw : Nat) (window : List Host.Cell) (p : Nat) : Byte :=
  match cellRead window p with
  | some b => b
  | none => Config.powerOnByte draw p

/-- `MemRead(p, 1)` of the machine (R11). -/
def memRead (s : State) (p : BitVec 13) : Byte := windowByte s.draw s.window p.toNat

/-- `MemWrite(p, 1, b)` (R11). -/
def memWrite (p : BitVec 13) (b : Byte) (s : State) : State := { s with window := cellWrite s.window p.toNat b }

/-- The physical address of a logical coordinate (R63). -/
def physical (s : State) (l : BitVec 13) : BitVec 13 := l ^^^ s.offsXor

/-- `WinRead(l)` (R64). -/
def winRead (s : State) (l : BitVec 13) : Byte := memRead s (physical s l)

/-- `WinWrite(l, b)` (R65). -/
def winWrite (l : BitVec 13) (b : Byte) (s : State) : State := memWrite (physical s l) b s

/-- What a copy reads at physical address `p`, `distance` bytes behind the output, when the stream has put out `total`
bytes: the byte there, where this stream wrote it (`distance <= total_out`, the condition of R82); a free value where
an earlier stream or nothing did (R45, R82, R162). No flag, no check (D12). Safe (log 1). -/
def sourceByte (draw total distance : Nat) (window : List Host.Cell) (p : Nat) : Byte :=
  match cellRead window p with
  | some b => if distance ≤ total then b else Config.staleByte draw p b
  | none => Config.powerOnByte draw p

/-! The bit accumulator. -/

/-- The accumulator during a refill: its bits, their number, the chunk position. -/
structure RefillResult where
  acc : BitVec 64
  nbits : BitVec 7
  pos : Nat
  deriving DecidableEq, Repr

/-- The loop of R153 over the bytes not yet taken: a byte is taken only while `nbits <= 56`. -/
def refillFrom : List Byte → RefillResult → RefillResult
  | [], r => r
  | b :: rest, r =>
    if r.nbits.toNat ≤ 56 then
      refillFrom rest
        { acc := r.acc ||| (b.setWidth 64 <<< r.nbits.toNat), nbits := r.nbits + 8, pos := r.pos + 1 }
    else r

/-- `Refill` (R153). -/
def refill (s : State) : State :=
  let r := refillFrom (s.chunk.drop s.pos) { acc := s.acc, nbits := s.nbits, pos := s.pos }
  { s with acc := r.acc, nbits := r.nbits, pos := r.pos }

/-- `ConsumeBits(used)` (R158), applied only where `used <= nbits`. -/
def consumeBits (used : Nat) (s : State) : State :=
  { s with acc := s.acc >>> used, nbits := BitVec.ofNat 7 (s.nbits.toNat - used) }

/-- `stream_bitpos` (R30, R212): the bit offset in the whole stream of the next undecoded bit. Inside a command the bytes
it has taken so far count too (DEDUCED, safe, log 21); between commands `pos` is 0 and this is R30's formula. -/
def State.streamBitpos (s : State) : Nat := 8 * (s.totalIn + s.pos) - s.nbits.toNat

/-! Swap and copy. -/

/-- `DoSwap` (R150, R151): the halves change places, no byte moves. -/
def doSwap (s : State) : State :=
  { s with
    offsXor := s.offsXor ^^^ 4096
    writeOffs := 4096
    swapPending := false
    currentOffs := if s.remainingLen = 0 then s.currentOffs else s.currentOffs - 4096 }

/-- The byte-serial, ascending copy of `n` bytes between logical coordinates (R74, R152): each read sees the writes
before it. `total` is the output position at its start (R31). -/
def copyBytes (draw sel : Nat) : Nat → Nat → Nat → Nat → List Host.Cell → List Host.Cell
  | 0, _, _, _, window => window
  | n + 1, total, src, dst, window =>
    copyBytes draw sel n (total + 1) (src + 1) (dst + 1)
      (cellWrite window (dst ^^^ sel) (sourceByte draw total (dst - src) window (src ^^^ sel)))

/-- The number of bytes the copy engine moves: what is pending, capped at the room in the active half (R152). -/
def copyCount (s : State) : Nat := min s.remainingLen.toNat (8192 - s.writeOffs.toNat)

/-- The `repeat n times` of R152: the bytes are moved, both cursors and the output position advance. -/
def moveBytes (n : Nat) (s : State) : State :=
  { s with
    totalOut := s.totalOut + n
    window := copyBytes s.draw s.offsXor.toNat n s.totalOut s.currentOffs.toNat s.writeOffs.toNat s.window
    currentOffs := s.currentOffs + BitVec.ofNat 13 n
    writeOffs := s.writeOffs + BitVec.ofNat 14 n
    remainingLen := s.remainingLen - BitVec.ofNat 16 n }

/-- `CopyRun` (R152): DONE leaves the reason alone, STOPPED defers the swap and stops the loop with HALF_FULL. -/
def copyRun (s : State) : State :=
  let t := moveBytes (copyCount s) s
  if t.remainingLen = 0 then t else stopHalfFull t

/-! Taking a fatal condition, and what leaves it. -/

/-- `raise Fatal(code)` (R206): the sticky flag and its code are set and the command ends with status FATAL. Nothing
else is written: no saved position, no handler, no mask (R212). -/
def raiseFatal (code : FaultCode) (s : State) : State :=
  { s with fatal := true, faultCode := code, reason := .fault }

/-- All registers at their reset values (R172, R231), the input and output positions at 0 (R233): the only way out of the
fatal and the ended state (R213). The table, the window and the host's records are not registers. -/
def resetRegisters (s : State) : State :=
  { s with
    offsXor := 0, writeOffs := 4096, acc := 0, nbits := 0, remainingLen := 0, currentOffs := 0, dictBits := 0
    needMode := true, needDict := true, swapPending := false, ended := false, fatal := false, faultCode := .none
    totalIn := 0, totalOut := 0 }

/-! The host's records. -/

/-- A command starts: the previous response and answer are no longer valid (R39, R233; log 5). -/
def dropOutputs (s : State) : State := { s with response := none, answer := none }

/-- The command in progress ends with this response; its configuration is gone (R174, R182), and what it consumed counts
into the input position (R30). -/
def closeCommand (r : Response) (s : State) : State :=
  { s with
    totalIn := s.totalIn + r.consumed
    response := some r, phase := .idle, chunk := [], pos := 0, start := 0, reason := .none, decoded := none }

/-- A response that consumed nothing and produced nothing (R175, R179, D25). -/
def emptyResponse (status : Status) (code : FaultCode) (stop : Stop) : Response :=
  { status := status, faultCode := code, stop := stop, consumed := 0, outOff := 0, outLen := 0 }

/-- The response after the loop, with the output slice (R174 step 5, R178, R179). -/
def loopResponse (s : State) : Response :=
  { status := if s.reason = .fault then .fatal else .ok
    faultCode := if s.reason = .fault then s.faultCode else .none
    stop := s.reason.stop
    consumed := s.pos
    outOff := s.start.setWidth 13 ^^^ s.offsXor
    outLen := (s.writeOffs - s.start).setWidth 13 }

/-- The bytes the host may read: `out_len` bytes from `out_off` upward, while the response is valid (R77, R178). -/
def outputSlice (s : State) : List Byte :=
  match s.response with
  | none => []
  | some r => (List.range r.outLen.toNat).map fun k => memRead s (r.outOff + BitVec.ofNat 13 k)

end Sys2Proof.Machine
end

