-- ==== Sys2Proof/Machine/Stream.lean ====
section
/-!
DEFINITION. The stream items: the header bytes (R140 to R144) and the effects of the symbols (R154 to R157), with the
tests a loop iteration makes before it applies a symbol (R176).
-/

namespace Sys2Proof.Machine

/-! Header bytes. -/

/-- MODE (R141): a byte other than 0 raises UNSUPPORTED_MODE; after 0 the dictionary byte comes next. Nothing is
consumed yet (R143). Where no header is outstanding there is nothing to do (R140, R144; log 17). The
step runs it only past the fatal early out (R174); given by hand with `fatal` set and the header outstanding it acts as
in a good state, which the spec leaves open (DESIGN CHOICE, safe, log 17). -/
def execMode (b : Byte) (s : State) : Host.Outcome State Fault Refusal :=
  .next <|
    if s.headerOutstanding = false then s
    else if b ≠ 0 then raiseFatal .unsupportedMode s
    else { s with phase := .dictByte }

/-- DICT (R142): the byte is stored unchanged, the header is done, both its bytes are consumed (R143, R144). Where no
header is outstanding there is nothing to do. Given by hand with `fatal` set and the header outstanding, as after
UNSUPPORTED_MODE, it still stores its byte and clears the flags; the spec reaches a header byte only past the fatal
early out (DESIGN CHOICE, safe, log 17). -/
def execDict (b : Byte) (s : State) : Host.Outcome State Fault Refusal :=
  .next <|
    if s.headerOutstanding = false then s
    else clearHeader { s with dictBits := b, pos := 2, phase := .swap }

/-! Symbol effects. -/

/-- LIT effect (R154); the output position advances with the cursor (R31). -/
def literalEffect (b : Byte) (s : State) : State :=
  let t := winWrite (s.writeOffs.setWidth 13) b (consumeBits literalUsed s)
  { t with writeOffs := t.writeOffs + 1, totalOut := t.totalOut + 1 }

/-- A copy of `length` bytes from `distance` bytes back is set up (R155). A difference that R155 rules out as negative
is 0 (DESIGN CHOICE, safe, log 25). -/
def startCopy (distance length : Nat) (s : State) : State :=
  { s with
    remainingLen := BitVec.ofNat 16 length
    currentOffs := BitVec.ofNat 13 (s.writeOffs.toNat - distance) }

/-- PAIR effect (R155, R156): the range fault comes before the bits are consumed and before any write. -/
def pairEffect (distance length used : Nat) (s : State) : State :=
  if distance > 4096 then raiseFatal .distanceRange s
  else copyRun (startCopy distance length (consumeBits used s))

/-- END effect (R157). -/
def endEffect (used : Nat) (s : State) : State := stopEnded (consumeBits used s)

/-- The tests a symbol of `used` bits meets before it is applied, in the order of R176 and R211: full half, missing
bits. The loop makes them before it fetches; a symbol given to `exec` by hand meets them here (DEDUCED, safe, log 12).
No other test is made: a LIT, END, PAIR or DIST given by hand with `ended` or `fatal` set, or with no command in
progress, acts as in the loop. The spec gives a symbol no effect there (DESIGN CHOICE, safe, log 19). Nor is the symbol
held against the bits in the accumulator: given by hand with other operands than the window holds, it acts on its
operands and drops as many bits as its own fields have (DESIGN CHOICE, safe, log 23). -/
def applySymbol (used : Nat) (effect : State → State) (s : State) : State :=
  if s.full then stopHalfFull s
  else if used > s.nbits.toNat then stopNeedBits s
  else effect s

/-- LIT (R122, R154). -/
def execLit (b : Byte) (s : State) : Host.Outcome State Fault Refusal :=
  .next (applySymbol literalUsed (literalEffect b) s)

/-- END (R124, R157): it uses the bits of its length part. Fields whose length value is not `T.end_value`, given to
`exec` by hand, end the stream too, and `extra` is not looked at: the spec has no such END (R96), no well-formed
instruction is one and the decoder answers none (DESIGN CHOICE, safe, log 13). -/
def execEndMark (lc _extra : Nat) (s : State) : Host.Outcome State Fault Refusal :=
  .next (applySymbol (lengthUsed s.table lc) (endEffect (lengthUsed s.table lc)) s)

/-- The length part that given fields stand for (R97, R123). -/
def lengthFields (T : CodeTable) (lc extra : Nat) : LengthPart :=
  { code := lc, extra := extra, val := lengthValue T lc extra, used := lengthUsed T lc }

/-- A pair with the given fields (R125, R155). Fields whose length value is the END sentinel are the end marker (R97);
no well-formed pair has such fields (DEDUCED, safe, log 13). The fields are the operands, whatever the accumulator and
`decoded` hold (DESIGN CHOICE, safe, log 23). -/
def pairInstr (lc extra dc low : Nat) (s : State) : Host.Outcome State Fault Refusal :=
  let len := lengthFields s.table lc extra
  let dist := distanceResult s.table s.dictBits.toNat len dc low
  let t := { s with decoded := none }
  .next <|
    if len.val = s.table.endValue then applySymbol len.used (endEffect len.used) t
    else applySymbol dist.used (pairEffect dist.distance dist.length dist.used) t

/-- The distance part of the pair whose length part stands at bit 0 of the accumulator (R125): the decoder returns
the pair's distance, length and bits, or `NeedBits`, and writes no register (R128). In a window that holds no pair
there is nothing the sub-field is part of (R111; log 8). Given by hand outside the loop it acts as in it (log 19). The
length part is the accumulator's; `dc` and `low` are the operands, also where a DIST given by hand names other fields
than the window holds behind the length part (DESIGN CHOICE, safe, log 23). -/
def distInstr (dc low : Nat) (s : State) : Host.Outcome State Fault Refusal :=
  let len := lengthPart s.table s.acc.toNat
  if field s.acc.toNat 0 1 = 0 ∨ len.val = s.table.endValue then .fault .distanceOutsidePair
  else
    let dist := distanceResult s.table s.dictBits.toNat len dc low
    .next (if dist.used > s.nbits.toNat then stopNeedBits s else { s with decoded := some dist })

end Sys2Proof.Machine
end

