-- ==== Sys2Proof/Machine/Commands.lean ====
section
/-!
DEFINITION. The host commands (R170 to R180). PROCESS_CHUNK is the big-step definition of R174, the reference (R182).
-/

namespace Sys2Proof.Machine

/-- A command is atomic (R170): it runs only where no command is in progress (R240; log 9). -/
def whenIdle (s : State) (run : State → Host.Outcome State Fault Refusal) : Host.Outcome State Fault Refusal :=
  if s.phase = .idle then run s else .refused .commandOverlap

/-- NEW (R171): the table is bound, all registers reset, the window is that of a new instance. -/
def execNew (table : CodeTable) (s : State) : Host.Outcome State Fault Refusal :=
  whenIdle s fun s =>
    if table.wf then
      .next { dropOutputs (resetRegisters s) with table := table, window := [], draw := s.draw + 1 }
    else .refused .malformedTable

/-- RESET (R172): all registers reset; table and window unchanged. Legal in every state between commands (D26). -/
def execReset (s : State) : Host.Outcome State Fault Refusal :=
  whenIdle s fun s => .next (dropOutputs (resetRegisters s))

/-- IS_ENDED (R173): the flag `ended` is the answer; no register, byte or table changes (R40). It is a command, so the
response of the one before is no longer valid (R39, R77; log 5). -/
def execIsEnded (s : State) : Host.Outcome State Fault Refusal :=
  whenIdle s fun s => .next { dropOutputs s with answer := some s.ended }

/-! PROCESS_CHUNK. -/

/-- The command starts: its chunk is taken, its position is 0, its reason NONE (R174). -/
def openCommand (chunk : List Byte) (s : State) : State :=
  { dropOutputs s with chunk := chunk, pos := 0, start := 0, reason := .none, decoded := none }

/-- `ConsumeHeader` (R144): how it leaves the command. -/
inductive HeaderResult where
  /-- It ends the command: with this response and in this state. -/
  | ends (r : Response) (s : State)
  /-- It returns 0 or 2 in `pos`. -/
  | goesOn (s : State)

/-- `ConsumeHeader` (R144): both bytes or nothing (R143). -/
def consumeHeader (s : State) : HeaderResult :=
  if s.headerOutstanding = false then .goesOn s
  else
    match s.chunk with
    | [] => .ends (emptyResponse .needMode .none .none) s
    | mode :: rest =>
      if mode ≠ 0 then
        .ends (emptyResponse .fatal .unsupportedMode .none) (raiseFatal .unsupportedMode s)
      else
        match rest with
        | [] => .ends (emptyResponse .needDictBits .none .none) s
        | dict :: _ => .goesOn (clearHeader { s with dictBits := dict, pos := 2 })

/-- Step 2 (R150, R161, R174): the deferred swap, then the start of the output slice is latched, then a pending copy is
resumed. -/
def enterLoop (s : State) : State :=
  let t := if s.swapPending then doSwap s else s
  let u := { t with start := t.writeOffs }
  if u.remainingLen = 0 then u else copyRun u

/-- One iteration of step 3 (R176): refill, full-half test, decode, apply. -/
def iteration (s : State) : State :=
  let t := refill s
  if t.full then stopHalfFull t
  else
    match decode t.acc.toNat t.nbits.toNat t.table t.dictBits.toNat with
    | .needBits _ => stopNeedBits t
    | .sym (.literal b) _ => literalEffect b t
    | .sym (.pair distance length) used => pairEffect distance length used t
    | .sym .endMark used => endEffect used t

/-- `while reason = NONE` (R174), at most `fuel` times round. -/
def decodeLoop : Nat → State → State
  | 0, s => s
  | fuel + 1, s => if s.reason = .none then decodeLoop fuel (iteration s) else s

/-- Enough iterations: each that goes on writes at least one byte into the free places of the half, and one more stops
(R183; log 15). -/
def loopFuel (s : State) : Nat := 8193 - s.writeOffs.toNat

/-- PROCESS_CHUNK as R174 defines it. -/
def processChunk (chunk : List Byte) (s : State) : State :=
  let s := openCommand chunk s
  if s.fatal then closeCommand (emptyResponse .fatal s.faultCode .none) s
  else if s.ended then closeCommand (emptyResponse .ok .none .ended) s
  else
    match consumeHeader s with
    | .ends r t => closeCommand r t
    | .goesOn t =>
      let u := enterLoop t
      let v := decodeLoop (loopFuel u) u
      closeCommand (loopResponse v) v

/-- PROCESS_CHUNK (R174). -/
def execProcessChunk (chunk : List Byte) (s : State) : Host.Outcome State Fault Refusal :=
  whenIdle s fun s => .next (processChunk chunk s)

end Sys2Proof.Machine
end

