-- ==== Sys2Proof/Machine/Dists.lean ====
section
/-!
DEFINITION. DIST.D0 to DIST.D63: each the distance operation of Machine/Stream.lean (R125) for its distance code.
-/

namespace Sys2Proof.Machine

/-- DIST.D0: R125 with distance code 0. -/
def execDistD0 (low : Nat) (s : State) : Host.Outcome State Fault Refusal := distInstr 0 low s

/-- DIST.D1: R125 with distance code 1. -/
def execDistD1 (low : Nat) (s : State) : Host.Outcome State Fault Refusal := distInstr 1 low s

/-- DIST.D2: R125 with distance code 2. -/
def execDistD2 (low : Nat) (s : State) : Host.Outcome State Fault Refusal := distInstr 2 low s

/-- DIST.D3: R125 with distance code 3. -/
def execDistD3 (low : Nat) (s : State) : Host.Outcome State Fault Refusal := distInstr 3 low s

/-- DIST.D4: R125 with distance code 4. -/
def execDistD4 (low : Nat) (s : State) : Host.Outcome State Fault Refusal := distInstr 4 low s

/-- DIST.D5: R125 with distance code 5. -/
def execDistD5 (low : Nat) (s : State) : Host.Outcome State Fault Refusal := distInstr 5 low s

/-- DIST.D6: R125 with distance code 6. -/
def execDistD6 (low : Nat) (s : State) : Host.Outcome State Fault Refusal := distInstr 6 low s

/-- DIST.D7: R125 with distance code 7. -/
def execDistD7 (low : Nat) (s : State) : Host.Outcome State Fault Refusal := distInstr 7 low s

/-- DIST.D8: R125 with distance code 8. -/
def execDistD8 (low : Nat) (s : State) : Host.Outcome State Fault Refusal := distInstr 8 low s

/-- DIST.D9: R125 with distance code 9. -/
def execDistD9 (low : Nat) (s : State) : Host.Outcome State Fault Refusal := distInstr 9 low s

/-- DIST.D10: R125 with distance code 10. -/
def execDistD10 (low : Nat) (s : State) : Host.Outcome State Fault Refusal := distInstr 10 low s

/-- DIST.D11: R125 with distance code 11. -/
def execDistD11 (low : Nat) (s : State) : Host.Outcome State Fault Refusal := distInstr 11 low s

/-- DIST.D12: R125 with distance code 12. -/
def execDistD12 (low : Nat) (s : State) : Host.Outcome State Fault Refusal := distInstr 12 low s

/-- DIST.D13: R125 with distance code 13. -/
def execDistD13 (low : Nat) (s : State) : Host.Outcome State Fault Refusal := distInstr 13 low s

/-- DIST.D14: R125 with distance code 14. -/
def execDistD14 (low : Nat) (s : State) : Host.Outcome State Fault Refusal := distInstr 14 low s

/-- DIST.D15: R125 with distance code 15. -/
def execDistD15 (low : Nat) (s : State) : Host.Outcome State Fault Refusal := distInstr 15 low s

/-- DIST.D16: R125 with distance code 16. -/
def execDistD16 (low : Nat) (s : State) : Host.Outcome State Fault Refusal := distInstr 16 low s

/-- DIST.D17: R125 with distance code 17. -/
def execDistD17 (low : Nat) (s : State) : Host.Outcome State Fault Refusal := distInstr 17 low s

/-- DIST.D18: R125 with distance code 18. -/
def execDistD18 (low : Nat) (s : State) : Host.Outcome State Fault Refusal := distInstr 18 low s

/-- DIST.D19: R125 with distance code 19. -/
def execDistD19 (low : Nat) (s : State) : Host.Outcome State Fault Refusal := distInstr 19 low s

/-- DIST.D20: R125 with distance code 20. -/
def execDistD20 (low : Nat) (s : State) : Host.Outcome State Fault Refusal := distInstr 20 low s

/-- DIST.D21: R125 with distance code 21. -/
def execDistD21 (low : Nat) (s : State) : Host.Outcome State Fault Refusal := distInstr 21 low s

/-- DIST.D22: R125 with distance code 22. -/
def execDistD22 (low : Nat) (s : State) : Host.Outcome State Fault Refusal := distInstr 22 low s

/-- DIST.D23: R125 with distance code 23. -/
def execDistD23 (low : Nat) (s : State) : Host.Outcome State Fault Refusal := distInstr 23 low s

/-- DIST.D24: R125 with distance code 24. -/
def execDistD24 (low : Nat) (s : State) : Host.Outcome State Fault Refusal := distInstr 24 low s

/-- DIST.D25: R125 with distance code 25. -/
def execDistD25 (low : Nat) (s : State) : Host.Outcome State Fault Refusal := distInstr 25 low s

/-- DIST.D26: R125 with distance code 26. -/
def execDistD26 (low : Nat) (s : State) : Host.Outcome State Fault Refusal := distInstr 26 low s

/-- DIST.D27: R125 with distance code 27. -/
def execDistD27 (low : Nat) (s : State) : Host.Outcome State Fault Refusal := distInstr 27 low s

/-- DIST.D28: R125 with distance code 28. -/
def execDistD28 (low : Nat) (s : State) : Host.Outcome State Fault Refusal := distInstr 28 low s

/-- DIST.D29: R125 with distance code 29. -/
def execDistD29 (low : Nat) (s : State) : Host.Outcome State Fault Refusal := distInstr 29 low s

/-- DIST.D30: R125 with distance code 30. -/
def execDistD30 (low : Nat) (s : State) : Host.Outcome State Fault Refusal := distInstr 30 low s

/-- DIST.D31: R125 with distance code 31. -/
def execDistD31 (low : Nat) (s : State) : Host.Outcome State Fault Refusal := distInstr 31 low s

/-- DIST.D32: R125 with distance code 32. -/
def execDistD32 (low : Nat) (s : State) : Host.Outcome State Fault Refusal := distInstr 32 low s

/-- DIST.D33: R125 with distance code 33. -/
def execDistD33 (low : Nat) (s : State) : Host.Outcome State Fault Refusal := distInstr 33 low s

/-- DIST.D34: R125 with distance code 34. -/
def execDistD34 (low : Nat) (s : State) : Host.Outcome State Fault Refusal := distInstr 34 low s

/-- DIST.D35: R125 with distance code 35. -/
def execDistD35 (low : Nat) (s : State) : Host.Outcome State Fault Refusal := distInstr 35 low s

/-- DIST.D36: R125 with distance code 36. -/
def execDistD36 (low : Nat) (s : State) : Host.Outcome State Fault Refusal := distInstr 36 low s

/-- DIST.D37: R125 with distance code 37. -/
def execDistD37 (low : Nat) (s : State) : Host.Outcome State Fault Refusal := distInstr 37 low s

/-- DIST.D38: R125 with distance code 38. -/
def execDistD38 (low : Nat) (s : State) : Host.Outcome State Fault Refusal := distInstr 38 low s

/-- DIST.D39: R125 with distance code 39. -/
def execDistD39 (low : Nat) (s : State) : Host.Outcome State Fault Refusal := distInstr 39 low s

/-- DIST.D40: R125 with distance code 40. -/
def execDistD40 (low : Nat) (s : State) : Host.Outcome State Fault Refusal := distInstr 40 low s

/-- DIST.D41: R125 with distance code 41. -/
def execDistD41 (low : Nat) (s : State) : Host.Outcome State Fault Refusal := distInstr 41 low s

/-- DIST.D42: R125 with distance code 42. -/
def execDistD42 (low : Nat) (s : State) : Host.Outcome State Fault Refusal := distInstr 42 low s

/-- DIST.D43: R125 with distance code 43. -/
def execDistD43 (low : Nat) (s : State) : Host.Outcome State Fault Refusal := distInstr 43 low s

/-- DIST.D44: R125 with distance code 44. -/
def execDistD44 (low : Nat) (s : State) : Host.Outcome State Fault Refusal := distInstr 44 low s

/-- DIST.D45: R125 with distance code 45. -/
def execDistD45 (low : Nat) (s : State) : Host.Outcome State Fault Refusal := distInstr 45 low s

/-- DIST.D46: R125 with distance code 46. -/
def execDistD46 (low : Nat) (s : State) : Host.Outcome State Fault Refusal := distInstr 46 low s

/-- DIST.D47: R125 with distance code 47. -/
def execDistD47 (low : Nat) (s : State) : Host.Outcome State Fault Refusal := distInstr 47 low s

/-- DIST.D48: R125 with distance code 48. -/
def execDistD48 (low : Nat) (s : State) : Host.Outcome State Fault Refusal := distInstr 48 low s

/-- DIST.D49: R125 with distance code 49. -/
def execDistD49 (low : Nat) (s : State) : Host.Outcome State Fault Refusal := distInstr 49 low s

/-- DIST.D50: R125 with distance code 50. -/
def execDistD50 (low : Nat) (s : State) : Host.Outcome State Fault Refusal := distInstr 50 low s

/-- DIST.D51: R125 with distance code 51. -/
def execDistD51 (low : Nat) (s : State) : Host.Outcome State Fault Refusal := distInstr 51 low s

/-- DIST.D52: R125 with distance code 52. -/
def execDistD52 (low : Nat) (s : State) : Host.Outcome State Fault Refusal := distInstr 52 low s

/-- DIST.D53: R125 with distance code 53. -/
def execDistD53 (low : Nat) (s : State) : Host.Outcome State Fault Refusal := distInstr 53 low s

/-- DIST.D54: R125 with distance code 54. -/
def execDistD54 (low : Nat) (s : State) : Host.Outcome State Fault Refusal := distInstr 54 low s

/-- DIST.D55: R125 with distance code 55. -/
def execDistD55 (low : Nat) (s : State) : Host.Outcome State Fault Refusal := distInstr 55 low s

/-- DIST.D56: R125 with distance code 56. -/
def execDistD56 (low : Nat) (s : State) : Host.Outcome State Fault Refusal := distInstr 56 low s

/-- DIST.D57: R125 with distance code 57. -/
def execDistD57 (low : Nat) (s : State) : Host.Outcome State Fault Refusal := distInstr 57 low s

/-- DIST.D58: R125 with distance code 58. -/
def execDistD58 (low : Nat) (s : State) : Host.Outcome State Fault Refusal := distInstr 58 low s

/-- DIST.D59: R125 with distance code 59. -/
def execDistD59 (low : Nat) (s : State) : Host.Outcome State Fault Refusal := distInstr 59 low s

/-- DIST.D60: R125 with distance code 60. -/
def execDistD60 (low : Nat) (s : State) : Host.Outcome State Fault Refusal := distInstr 60 low s

/-- DIST.D61: R125 with distance code 61. -/
def execDistD61 (low : Nat) (s : State) : Host.Outcome State Fault Refusal := distInstr 61 low s

/-- DIST.D62: R125 with distance code 62. -/
def execDistD62 (low : Nat) (s : State) : Host.Outcome State Fault Refusal := distInstr 62 low s

/-- DIST.D63: R125 with distance code 63. -/
def execDistD63 (low : Nat) (s : State) : Host.Outcome State Fault Refusal := distInstr 63 low s

end Sys2Proof.Machine
end

