-- ==== Sys2Proof/Machine/Pairs.lean ====
section
/-!
DEFINITION. PAIR.L0 to PAIR.L15: each the pair operation of Machine/Stream.lean (R155) for its length code.
-/

namespace Sys2Proof.Machine

/-- PAIR.L0: R155 with length code 0. -/
def execPairL0 (extra dc low : Nat) (s : State) : Host.Outcome State Fault Refusal := pairInstr 0 extra dc low s

/-- PAIR.L1: R155 with length code 1. -/
def execPairL1 (extra dc low : Nat) (s : State) : Host.Outcome State Fault Refusal := pairInstr 1 extra dc low s

/-- PAIR.L2: R155 with length code 2. -/
def execPairL2 (extra dc low : Nat) (s : State) : Host.Outcome State Fault Refusal := pairInstr 2 extra dc low s

/-- PAIR.L3: R155 with length code 3. -/
def execPairL3 (extra dc low : Nat) (s : State) : Host.Outcome State Fault Refusal := pairInstr 3 extra dc low s

/-- PAIR.L4: R155 with length code 4. -/
def execPairL4 (extra dc low : Nat) (s : State) : Host.Outcome State Fault Refusal := pairInstr 4 extra dc low s

/-- PAIR.L5: R155 with length code 5. -/
def execPairL5 (extra dc low : Nat) (s : State) : Host.Outcome State Fault Refusal := pairInstr 5 extra dc low s

/-- PAIR.L6: R155 with length code 6. -/
def execPairL6 (extra dc low : Nat) (s : State) : Host.Outcome State Fault Refusal := pairInstr 6 extra dc low s

/-- PAIR.L7: R155 with length code 7. -/
def execPairL7 (extra dc low : Nat) (s : State) : Host.Outcome State Fault Refusal := pairInstr 7 extra dc low s

/-- PAIR.L8: R155 with length code 8. -/
def execPairL8 (extra dc low : Nat) (s : State) : Host.Outcome State Fault Refusal := pairInstr 8 extra dc low s

/-- PAIR.L9: R155 with length code 9. -/
def execPairL9 (extra dc low : Nat) (s : State) : Host.Outcome State Fault Refusal := pairInstr 9 extra dc low s

/-- PAIR.L10: R155 with length code 10. -/
def execPairL10 (extra dc low : Nat) (s : State) : Host.Outcome State Fault Refusal := pairInstr 10 extra dc low s

/-- PAIR.L11: R155 with length code 11. -/
def execPairL11 (extra dc low : Nat) (s : State) : Host.Outcome State Fault Refusal := pairInstr 11 extra dc low s

/-- PAIR.L12: R155 with length code 12. -/
def execPairL12 (extra dc low : Nat) (s : State) : Host.Outcome State Fault Refusal := pairInstr 12 extra dc low s

/-- PAIR.L13: R155 with length code 13. -/
def execPairL13 (extra dc low : Nat) (s : State) : Host.Outcome State Fault Refusal := pairInstr 13 extra dc low s

/-- PAIR.L14: R155 with length code 14. -/
def execPairL14 (extra dc low : Nat) (s : State) : Host.Outcome State Fault Refusal := pairInstr 14 extra dc low s

/-- PAIR.L15: R155 with length code 15. -/
def execPairL15 (extra dc low : Nat) (s : State) : Host.Outcome State Fault Refusal := pairInstr 15 extra dc low s

end Sys2Proof.Machine
end

