-- ==== Sys2Proof/Machine/Dispatch.lean ====
section
/-!
DEFINITION. exec: one arm per instruction, each one call of its meaning.
-/

namespace Sys2Proof.Machine

def exec (i : Instr) (s : State) : Host.Outcome State Fault Refusal :=
  match i with
  | .mode b => Sys2Proof.Machine.execMode b s
  | .dict b => Sys2Proof.Machine.execDict b s
  | .lit b => Sys2Proof.Machine.execLit b s
  | .endMark lc extra => Sys2Proof.Machine.execEndMark lc extra s
  | .pairL0 extra dc low => Sys2Proof.Machine.execPairL0 extra dc low s
  | .pairL1 extra dc low => Sys2Proof.Machine.execPairL1 extra dc low s
  | .pairL2 extra dc low => Sys2Proof.Machine.execPairL2 extra dc low s
  | .pairL3 extra dc low => Sys2Proof.Machine.execPairL3 extra dc low s
  | .pairL4 extra dc low => Sys2Proof.Machine.execPairL4 extra dc low s
  | .pairL5 extra dc low => Sys2Proof.Machine.execPairL5 extra dc low s
  | .pairL6 extra dc low => Sys2Proof.Machine.execPairL6 extra dc low s
  | .pairL7 extra dc low => Sys2Proof.Machine.execPairL7 extra dc low s
  | .pairL8 extra dc low => Sys2Proof.Machine.execPairL8 extra dc low s
  | .pairL9 extra dc low => Sys2Proof.Machine.execPairL9 extra dc low s
  | .pairL10 extra dc low => Sys2Proof.Machine.execPairL10 extra dc low s
  | .pairL11 extra dc low => Sys2Proof.Machine.execPairL11 extra dc low s
  | .pairL12 extra dc low => Sys2Proof.Machine.execPairL12 extra dc low s
  | .pairL13 extra dc low => Sys2Proof.Machine.execPairL13 extra dc low s
  | .pairL14 extra dc low => Sys2Proof.Machine.execPairL14 extra dc low s
  | .pairL15 extra dc low => Sys2Proof.Machine.execPairL15 extra dc low s
  | .distD0 low => Sys2Proof.Machine.execDistD0 low s
  | .distD1 low => Sys2Proof.Machine.execDistD1 low s
  | .distD2 low => Sys2Proof.Machine.execDistD2 low s
  | .distD3 low => Sys2Proof.Machine.execDistD3 low s
  | .distD4 low => Sys2Proof.Machine.execDistD4 low s
  | .distD5 low => Sys2Proof.Machine.execDistD5 low s
  | .distD6 low => Sys2Proof.Machine.execDistD6 low s
  | .distD7 low => Sys2Proof.Machine.execDistD7 low s
  | .distD8 low => Sys2Proof.Machine.execDistD8 low s
  | .distD9 low => Sys2Proof.Machine.execDistD9 low s
  | .distD10 low => Sys2Proof.Machine.execDistD10 low s
  | .distD11 low => Sys2Proof.Machine.execDistD11 low s
  | .distD12 low => Sys2Proof.Machine.execDistD12 low s
  | .distD13 low => Sys2Proof.Machine.execDistD13 low s
  | .distD14 low => Sys2Proof.Machine.execDistD14 low s
  | .distD15 low => Sys2Proof.Machine.execDistD15 low s
  | .distD16 low => Sys2Proof.Machine.execDistD16 low s
  | .distD17 low => Sys2Proof.Machine.execDistD17 low s
  | .distD18 low => Sys2Proof.Machine.execDistD18 low s
  | .distD19 low => Sys2Proof.Machine.execDistD19 low s
  | .distD20 low => Sys2Proof.Machine.execDistD20 low s
  | .distD21 low => Sys2Proof.Machine.execDistD21 low s
  | .distD22 low => Sys2Proof.Machine.execDistD22 low s
  | .distD23 low => Sys2Proof.Machine.execDistD23 low s
  | .distD24 low => Sys2Proof.Machine.execDistD24 low s
  | .distD25 low => Sys2Proof.Machine.execDistD25 low s
  | .distD26 low => Sys2Proof.Machine.execDistD26 low s
  | .distD27 low => Sys2Proof.Machine.execDistD27 low s
  | .distD28 low => Sys2Proof.Machine.execDistD28 low s
  | .distD29 low => Sys2Proof.Machine.execDistD29 low s
  | .distD30 low => Sys2Proof.Machine.execDistD30 low s
  | .distD31 low => Sys2Proof.Machine.execDistD31 low s
  | .distD32 low => Sys2Proof.Machine.execDistD32 low s
  | .distD33 low => Sys2Proof.Machine.execDistD33 low s
  | .distD34 low => Sys2Proof.Machine.execDistD34 low s
  | .distD35 low => Sys2Proof.Machine.execDistD35 low s
  | .distD36 low => Sys2Proof.Machine.execDistD36 low s
  | .distD37 low => Sys2Proof.Machine.execDistD37 low s
  | .distD38 low => Sys2Proof.Machine.execDistD38 low s
  | .distD39 low => Sys2Proof.Machine.execDistD39 low s
  | .distD40 low => Sys2Proof.Machine.execDistD40 low s
  | .distD41 low => Sys2Proof.Machine.execDistD41 low s
  | .distD42 low => Sys2Proof.Machine.execDistD42 low s
  | .distD43 low => Sys2Proof.Machine.execDistD43 low s
  | .distD44 low => Sys2Proof.Machine.execDistD44 low s
  | .distD45 low => Sys2Proof.Machine.execDistD45 low s
  | .distD46 low => Sys2Proof.Machine.execDistD46 low s
  | .distD47 low => Sys2Proof.Machine.execDistD47 low s
  | .distD48 low => Sys2Proof.Machine.execDistD48 low s
  | .distD49 low => Sys2Proof.Machine.execDistD49 low s
  | .distD50 low => Sys2Proof.Machine.execDistD50 low s
  | .distD51 low => Sys2Proof.Machine.execDistD51 low s
  | .distD52 low => Sys2Proof.Machine.execDistD52 low s
  | .distD53 low => Sys2Proof.Machine.execDistD53 low s
  | .distD54 low => Sys2Proof.Machine.execDistD54 low s
  | .distD55 low => Sys2Proof.Machine.execDistD55 low s
  | .distD56 low => Sys2Proof.Machine.execDistD56 low s
  | .distD57 low => Sys2Proof.Machine.execDistD57 low s
  | .distD58 low => Sys2Proof.Machine.execDistD58 low s
  | .distD59 low => Sys2Proof.Machine.execDistD59 low s
  | .distD60 low => Sys2Proof.Machine.execDistD60 low s
  | .distD61 low => Sys2Proof.Machine.execDistD61 low s
  | .distD62 low => Sys2Proof.Machine.execDistD62 low s
  | .distD63 low => Sys2Proof.Machine.execDistD63 low s
  | .isEnded => Sys2Proof.Machine.execIsEnded s
  | .processChunk chunk => Sys2Proof.Machine.execProcessChunk chunk s
  | .reset => Sys2Proof.Machine.execReset s
  | .new table => Sys2Proof.Machine.execNew table s

end Sys2Proof.Machine
end

