-- ==== Sys2Proof/Machine/Fetch.lean ====
section
/-!
DEFINITION. What comes next: the host's next command when none is in progress, or the next small step of the
PROCESS_CHUNK in progress (R182). Also the placing of a bare word of the opcode table.
-/

namespace Sys2Proof.Machine

/-- What a step does next. -/
inductive Fetched where
  /-- Run this instruction from this state (the record taken from the port, the accumulator refilled). -/
  | run (i : Instr) (s : State)
  /-- A part of R174 that is no instruction: this is the next state. -/
  | quiet (s : State)

/-- PROCESS_CHUNK in small steps, from its start (R174, R182): the early outs of R175, then the phase its header and
swap tests lead to. `Obligations.SmallStepsEqualProcessChunk` says that the small steps from here reach what
`processChunk` answers. -/
def startChunk (chunk : List Byte) (s : State) : State :=
  let s := openCommand chunk s
  if s.fatal then closeCommand (emptyResponse .fatal s.faultCode .none) s
  else if s.ended then closeCommand (emptyResponse .ok .none .ended) s
  else { s with phase := if s.headerOutstanding then .modeByte else .swap }

/-- No command in progress: the next record is taken from the port (R38, R170); with none there the block idles and
keeps its state (R218). -/
def fetchCommand (s : State) : Fetched :=
  match s.port with
  | [] => .quiet s
  | r :: rest => .run (decodeCommand r) { s with port := rest }

/-- The mode byte is next (R141): backpressure where the chunk is empty; after a fatal mode byte the command ends with
the stored code (R206, R207). -/
def fetchMode (s : State) : Fetched :=
  if s.reason ≠ .none then .quiet (closeCommand (emptyResponse .fatal s.faultCode .none) s)
  else
    match s.chunk[0]? with
    | none => .quiet (closeCommand (emptyResponse .needMode .none .none) s)
    | some b => .run (.mode b) s

/-- The dictionary byte is next (R142). -/
def fetchDict (s : State) : Fetched :=
  match s.chunk[1]? with
  | none => .quiet (closeCommand (emptyResponse .needDictBits .none .none) s)
  | some b => .run (.dict b) s

/-- The loop (R176): end of the command once a reason stands; a pair whose distance part is decoded is applied; else
refill, full-half test, decode. -/
def fetchSymbol (s : State) : Fetched :=
  if s.reason ≠ .none then .quiet (closeCommand (loopResponse s) s)
  else
    match s.decoded with
    | some dist =>
      let len := lengthPart s.table s.acc.toNat
      .run (.ofPair len.code len.extra dist.code dist.low) s
    | none =>
      let t := refill s
      if t.full then .quiet (stopHalfFull t)
      else
        match decodeStage t.acc.toNat t.nbits.toNat t.table t.dictBits.toNat with
        | .needBits _ => .quiet (stopNeedBits t)
        | .sym i _ => .run i t

/-- What comes next. -/
def fetch (s : State) : Fetched :=
  match s.phase with
  | .idle => fetchCommand s
  | .modeByte => fetchMode s
  | .dictByte => fetchDict s
  | .swap => .quiet { enterLoop s with phase := .loop }
  | .loop => fetchSymbol s

/-! A bare word of the opcode table, placed where the next step fetches it (log 14). -/

/-- A PROCESS_CHUNK is in progress, in its loop, with these stream bits in a full accumulator, the standard table and
the dictionary byte of `tableContext`. -/
def placeBits (s : State) (value : Nat) : State :=
  { s with
    acc := BitVec.ofNat 64 value, nbits := 64, table := tableContext.table
    dictBits := BitVec.ofNat 8 tableContext.dictBits
    needMode := false, needDict := false, swapPending := false, remainingLen := 0
    writeOffs := if s.full then 4096 else s.writeOffs
    phase := .loop, chunk := [], pos := 0, start := if s.full then 4096 else s.writeOffs
    reason := .none, decoded := none }

/-- For a pair, its distance part is decoded already, so that the very next step applies the pair. -/
def placeSymbol (s : State) (value : Nat) : State :=
  let t := placeBits s value
  let len := lengthPart t.table t.acc.toNat
  if field t.acc.toNat 0 1 = 0 ∨ len.val = t.table.endValue then t
  else { t with decoded := some (distancePart t.table t.dictBits.toNat t.acc.toNat len) }

/-- The bare word placed in its space: a symbol in the accumulator; a distance sub-field behind the length part of
PAIR.L1 (window bits 111); a mode byte as the first byte of the chunk of a PROCESS_CHUNK after reset. -/
def placeTableWord (s : State) (nbits w : Nat) : State :=
  let value := (tableBits nbits w).value
  match tableSpace nbits w with
  | .modeByte =>
    { s with
      needMode := true, needDict := true, phase := .modeByte, chunk := [BitVec.ofNat 8 w, 0], pos := 0
      reason := .none, decoded := none }
  | .distance => placeBits s (7 + value * 8)
  | _ => placeSymbol s value

end Sys2Proof.Machine
end

