-- ==== Sys2Proof/Safety.lean ====
section
/-!
DEFINITION. What a good state is: the invariants of R37 between commands, and what holds inside a PROCESS_CHUNK; the
stall of R190; the byte-by-byte reading of the window that statements use.
-/

namespace Sys2Proof.Machine

/-- The ten items of R37, in its order. -/
structure State.Boundary (s : State) : Prop where
  selector : s.offsXor = 0 ∨ s.offsXor = 4096
  cursor : 4096 ≤ s.writeOffs.toNat ∧ s.writeOffs.toNat ≤ 8192
  full_iff_pending : s.writeOffs = 8192 ↔ s.swapPending = true
  bits : s.nbits.toNat ≤ 64 ∧ s.acc.toNat < 2 ^ s.nbits.toNat
  copy : s.remainingLen ≠ 0 → s.swapPending = true ∧ s.writeOffs = 8192 ∧ 4096 ≤ s.currentOffs.toNat
  header_equal : s.needMode = s.needDict
  header_reset : s.needMode = true →
    s.offsXor = 0 ∧ s.writeOffs = 4096 ∧ s.acc = 0 ∧ s.nbits = 0 ∧ s.remainingLen = 0 ∧ s.currentOffs = 0 ∧
      s.dictBits = 0 ∧ s.swapPending = false ∧ s.ended = false
  ended_quiet : s.ended = true → s.swapPending = false ∧ s.remainingLen = 0 ∧ s.needMode = false
  fatal_iff_code : s.fatal = true ↔ s.faultCode ≠ .none
  not_both : ¬(s.ended = true ∧ s.fatal = true)

/-- Between two iterations of the decode loop that goes on (R176): no flag is set, no copy is pending, the cursor is
anywhere in the half. -/
structure State.Running (s : State) : Prop where
  selector : s.offsXor = 0 ∨ s.offsXor = 4096
  cursor : 4096 ≤ s.writeOffs.toNat ∧ s.writeOffs.toNat ≤ 8192
  bits : s.nbits.toNat ≤ 64 ∧ s.acc.toNat < 2 ^ s.nbits.toNat
  not_pending : s.swapPending = false
  no_copy : s.remainingLen = 0
  header_done : s.needMode = false ∧ s.needDict = false
  not_ended : s.ended = false
  not_fatal : s.fatal = false ∧ s.faultCode = .none

/-- Where the loop has stopped for a reason (R176, column "state left"). -/
structure State.Stopped (s : State) : Prop where
  boundary : s.Boundary
  header_done : s.needMode = false
  ended_iff : s.ended = true ↔ s.reason = .ended
  fatal_iff : s.fatal = true ↔ s.reason = .fault
  pending_iff : s.swapPending = true ↔ s.reason = .halfFull

/-- What holds in each phase. -/
def State.PhaseOk (s : State) : Prop :=
  match s.phase with
  | .idle => s.Boundary ∧ s.reason = .none ∧ s.decoded = none
  | .modeByte =>
    s.Boundary ∧ s.needMode = true ∧ s.decoded = none ∧
      (s.reason = .none ∧ s.fatal = false ∨ s.reason = .fault ∧ s.fatal = true)
  | .dictByte => s.Boundary ∧ s.needMode = true ∧ s.fatal = false ∧ s.reason = .none ∧ s.decoded = none
  | .swap =>
    s.Boundary ∧ s.needMode = false ∧ s.ended = false ∧ s.fatal = false ∧ s.reason = .none ∧ s.decoded = none ∧
      s.pos ≤ s.chunk.length
  | .loop =>
    (s.reason = .none → s.Running) ∧ (s.reason ≠ .none → s.Stopped) ∧
      4096 ≤ s.start.toNat ∧ s.start.toNat ≤ 8191 ∧ s.start.toNat ≤ s.writeOffs.toNat ∧ s.pos ≤ s.chunk.length

/-- The invariant of the machine: the bound table is well-formed (R42, R171), the window has its canonical form and lies
inside the RAM (R60), this stream wrote every byte of the active half below the cursor (R31), every held bit came in
through a consumed chunk byte (R30, R44), and the phase's condition holds. -/
structure State.Inv (s : State) : Prop where
  table_wf : s.table.wf = true
  window_wf : Memory.wf s.window = true
  bits_ok : s.nbits.toNat ≤ 8 * (s.totalIn + if s.phase = .idle then 0 else s.pos)
  position_ok : s.writeOffs.toNat ≤ 4096 + s.totalOut
  phase_ok : s.PhaseOk

/-- A stalled stream (R190): the accumulator is as full as it gets and the next symbol still needs more bits. -/
def State.Stalled (s : State) : Prop :=
  57 ≤ s.nbits.toNat ∧ ∃ n, decode s.acc.toNat s.nbits.toNat s.table s.dictBits.toNat = .needBits n

/-- Every register of R21 has its reset value (R231), and the input and output positions are 0 (R233). -/
def State.RegistersReset (s : State) : Prop :=
  s.offsXor = 0 ∧ s.writeOffs = 4096 ∧ s.acc = 0 ∧ s.nbits = 0 ∧ s.remainingLen = 0 ∧ s.currentOffs = 0 ∧
    s.dictBits = 0 ∧ s.needMode = true ∧ s.needDict = true ∧ s.swapPending = false ∧ s.ended = false ∧
    s.fatal = false ∧ s.faultCode = .none ∧ s.totalIn = 0 ∧ s.totalOut = 0

/-- Every register of R21 but `fatal` and `fault_code`, and the input and output positions, are the same. -/
def SameStreamRegisters (s t : State) : Prop :=
  t.offsXor = s.offsXor ∧ t.writeOffs = s.writeOffs ∧ t.acc = s.acc ∧ t.nbits = s.nbits ∧
    t.remainingLen = s.remainingLen ∧ t.currentOffs = s.currentOffs ∧ t.dictBits = s.dictBits ∧
    t.needMode = s.needMode ∧ t.needDict = s.needDict ∧ t.swapPending = s.swapPending ∧ t.ended = s.ended ∧
    t.totalIn = s.totalIn ∧ t.totalOut = s.totalOut

/-- Every register of R21, and the input and output positions, are the same. -/
def SameRegisters (s t : State) : Prop :=
  SameStreamRegisters s t ∧ t.fatal = s.fatal ∧ t.faultCode = s.faultCode

/-- Window, CodeTable, and the commands the host is going to present are the same. -/
def SameStorage (s t : State) : Prop :=
  t.window = s.window ∧ t.draw = s.draw ∧ t.table = s.table ∧ t.port = s.port

/-- A PROCESS_CHUNK that is going to be carried out, not answered early (R175): no command is in progress, the stream
has neither ended nor failed. -/
def State.Ready (s : State) : Prop := s.phase = .idle ∧ s.fatal = false ∧ s.ended = false

/-- Every address outside `[first, first + n)` of the window reads as before. -/
def SameWindowOutside (first n : Nat) (s t : State) : Prop :=
  ∀ p : BitVec 13, p.toNat < first ∨ first + n ≤ p.toNat → memRead t p = memRead s p

/-- The stream has put out `out` (R31), and the window shows its end (R186): the bytes before the write cursor, newest
first, as far as the window reaches back. -/
def State.Shows (s : State) (out : List Byte) : Prop :=
  s.totalOut = out.length ∧
  ∀ j < min out.length s.writeOffs.toNat, winRead s (BitVec.ofNat 13 (s.writeOffs.toNat - 1 - j)) = out.reverse.getD j 0

/-- The reference decoder's pair (R186): `n` times the byte `distance` from the end, the length taken anew each time,
is appended to the output. -/
def referencePair (distance : Nat) : Nat → List Byte → List Byte
  | 0, out => out
  | n + 1, out => referencePair distance n (out ++ [out.getD (out.length - distance) 0])

/-- Every address of the window reads as before. -/
def SameWindow (s t : State) : Prop := ∀ p : BitVec 13, memRead t p = memRead s p

end Sys2Proof.Machine
end

