-- ==== Sys2Proof/Certificates/Slice0/Obligations.lean ====
section
/-!
DEFINITION. The statements for the provers. A statement marked (model) rests on a choice of the model, named with its
log entry; every other one on the rules it cites in OBLIGATIONS.json.
-/

open Sys2Proof Sys2Proof.Machine

/-! Reset and the CodeTable. -/

/-- R231 for the state the machine starts in: every register has its reset value. -/
def Obligations.ResetStateHasTheResetValues : Prop := State.reset.RegistersReset

/-- The invariant holds right after reset. -/
def Obligations.ResetStateKeepsTheInvariant : Prop := State.reset.Inv

/-- R172, with R233: RESET completes between commands, sets all registers to their reset values, leaves the CodeTable,
the window and the pending commands alone, and the response is no longer valid (the model drops it, log 5). -/
def Obligations.ResetCommandResetsRegistersOnly : Prop :=
  ∀ s : State, s.phase = .idle →
    ∃ t, exec .reset s = .next t ∧ t.RegistersReset ∧ SameStorage s t ∧ SameWindow s t ∧ t.response = none ∧
      t.phase = .idle

/-- R234, last sentence: RESET applied twice equals RESET applied once. -/
def Obligations.ResetTwiceIsResetOnce : Prop :=
  ∀ s t : State, s.phase = .idle → exec .reset s = .next t → exec .reset t = .next t

/-- R171: NEW completes with a well-formed table, binds it and resets the registers; with any other table it is refused
(the name of the refusal is the model's, log 9). (model) Every window byte reads as the opaque power-on constant of the
new instance, logs 1 and 2: that is how the model says R232's "unspecified"; the response is dropped, log 5. -/
def Obligations.NewBindsAWellFormedTable : Prop :=
  ∀ (T : CodeTable) (s : State), s.phase = .idle →
    (T.wf = true → ∃ t, exec (.new T) s = .next t ∧ t.RegistersReset ∧ t.table = T ∧ t.port = s.port ∧
      t.response = none ∧ t.phase = .idle ∧ ∀ p, memRead t p = Config.powerOnByte t.draw p.toNat) ∧
    (T.wf = false → exec (.new T) s = .refused .malformedTable)

/-- R42 items 5 and 6 are what `CodeTable.wf` tests: a table is well-formed exactly when the seven items hold. -/
def Obligations.WellFormedTableIsTheSevenItems : Prop :=
  ∀ T : CodeTable, T.wf = true ↔
    (T.lenExtraBits.length = 16 ∧ T.lenBase.length = 16 ∧ T.lenBits.length = 16 ∧ T.lenAddend.length = 16 ∧
      T.lenLookup.length = 256 ∧ T.distBits.length = 64 ∧ T.distLookup.length = 256) ∧
    (∀ b < 256, T.lenLookupAt b < 16 ∧ T.distLookupAt b < 64) ∧
    (∀ i < 16, 1 ≤ T.lenBitsAt i ∧ T.lenBitsAt i ≤ 8) ∧ (∀ j < 64, 1 ≤ T.distBitsAt j ∧ T.distBitsAt j ≤ 8) ∧
    (∀ i < 16, T.lenExtraBitsAt i ≤ 8) ∧
    (∀ b < 256, ∀ c < 256, c % 2 ^ T.lenBitsAt (T.lenLookupAt b) = b % 2 ^ T.lenBitsAt (T.lenLookupAt b) →
      T.lenLookupAt c = T.lenLookupAt b) ∧
    (∀ b < 256, ∀ c < 256, c % 2 ^ T.distBitsAt (T.distLookupAt b) = b % 2 ^ T.distBitsAt (T.distLookupAt b) →
      T.distLookupAt c = T.distLookupAt b) ∧
    (∀ i < 16, T.lenAddendAt i + 2 ^ T.lenExtraBitsAt i - 1 + 2 ≤ 65535) ∧ T.endValue ≤ 65535

/-- The standard lookups are the ones R103's rule generates from the patterns and widths of R104 and R106. -/
def Obligations.StandardLookupsAreGenerated : Prop :=
  generateLookup standardLenPatterns standardTable.lenBits = standardTable.lenLookup ∧
    generateLookup standardDistPatterns standardTable.distBits = standardTable.distLookup

/-! The Symbol Decoder. -/

/-- Words written out from the spec's formats decode to their instructions. -/
def Obligations.SampleWordsDecode : Prop :=
  decodeInstr 0x082 9 standardTable 4 = .sym (.lit 0x41) 9 ∧
    decodeInstr 0xFF01 16 standardTable 4 = .sym (.endMark 15 255) 16 ∧
    decodeInstr 0x3C9 13 standardTable 4 = .sym (.pairL8 1 0 1) 13 ∧
    decodeInstr 0x3F00FE01 30 standardTable 6 = .sym (.pairL15 254 63 63) 30 ∧
    decodeDistance { table := standardTable, dictBits := 5, lenVal := 8 } 0x79 = .distD3 3 ∧
    decodeCommand { cmd := 3, chunk := [], table := standardTable } = .new standardTable

/-- R122: a window whose bit 0 is 0 is a literal of 9 bits, or 9 - nbits bits are missing. -/
def Obligations.LiteralDecodesInNineBits : Prop :=
  ∀ (win nbits : Nat) (T : CodeTable) (d : Nat), field win 0 1 = 0 →
    decode win nbits T d =
      if 9 > nbits then .needBits (9 - nbits) else .sym (.literal (BitVec.ofNat 8 (field win 1 8))) 9

/-- R124: a class 1 window whose length value is the END sentinel is the end marker, with no distance read. -/
def Obligations.EndMarkerDecodesWithoutDistance : Prop :=
  ∀ (win nbits : Nat) (T : CodeTable) (d : Nat), field win 0 1 = 1 →
    let lc := T.lenLookupAt (field win 1 8)
    let w := T.lenBitsAt lc
    let e := T.lenExtraBitsAt lc
    (if e ≠ 0 then T.lenAddendAt lc + field win (1 + w) e else lc) = T.endValue →
    decode win nbits T d = if 1 + w + e > nbits then .needBits (1 + w + e - nbits) else .sym .endMark (1 + w + e)

/-- R120, R129: a returned symbol uses at least 2 bits and no more than there are, a missing count is between 1 and 280,
and length and distance are in the ranges of R129. -/
def Obligations.DecodeResultsStayInRange : Prop :=
  ∀ (win nbits : Nat) (T : CodeTable) (d : Nat), T.wf = true → d ≤ 255 →
    (∀ sym used, decode win nbits T d = .sym sym used → 2 ≤ used ∧ used ≤ nbits ∧ used ≤ 280) ∧
    (∀ n, decode win nbits T d = .needBits n → 1 ≤ n ∧ n ≤ 280) ∧
    (∀ dist len used, decode win nbits T d = .sym (.pair dist len) used →
      2 ≤ len ∧ len ≤ 65535 ∧ 1 ≤ dist ∧ dist ≤ 64 * 2 ^ trailingWidth (len - 2) d)

/-- R130: a returned symbol depends only on the bits it uses. -/
def Obligations.SymbolDependsOnUsedBitsOnly : Prop :=
  ∀ (win win' nbits nbits' : Nat) (T : CodeTable) (d : Nat) (sym : Symbol) (used : Nat), T.wf = true →
    decode win nbits T d = .sym sym used → win' % 2 ^ used = win % 2 ^ used → used ≤ nbits' →
    decode win' nbits' T d = .sym sym used

/-- R131: with fewer valid bits than the true symbol needs, the answer is `NeedBits`, whatever the padding. -/
def Obligations.PaddingNeverFakesASymbol : Prop :=
  ∀ (win win' N nbits : Nat) (T : CodeTable) (d : Nat) (sym : Symbol) (used : Nat), T.wf = true →
    decode win N T d = .sym sym used → nbits < used → win' % 2 ^ nbits = win % 2 ^ nbits →
    ∃ n, decode win' nbits T d = .needBits n

/-- The property R125 ends with: every length code, extra field, distance code and trailing field the table has
decodes to the distance and the length of the formulas, using the sum of the widths, whatever bits follow. -/
def Obligations.EncodedPairDecodesToItsFormulas : Prop :=
  ∀ (c : Context) (lc extra dc low above nbits : Nat), c.table.wf = true →
    pairFieldsOk c.table c.dictBits lc extra dc low = true →
    let val := lengthValue c.table lc extra
    let tw := if val = 0 then 2 else c.dictBits
    let used := 1 + c.table.lenBitsAt lc + c.table.lenExtraBitsAt lc + c.table.distBitsAt dc + tw
    used ≤ nbits →
    decode ((encodePair c lc extra dc low).value + above * 2 ^ used) nbits c.table c.dictBits =
      .sym (.pair (dc * 2 ^ tw + low + 1) (val + 2)) used

/-- Decode and encode agree for LIT, END and PAIR.L0 to PAIR.L15, whatever bits follow the symbol. -/
def Obligations.EncodedSymbolDecodesToItself : Prop :=
  ∀ (c : Context) (i : Instr) (b : Bits) (above nbits : Nat), c.table.wf = true → i.wf c = true →
    i.space = .symbol → encode c i = .bits b → b.width ≤ nbits →
    decodeInstr (b.value + above * 2 ^ b.width) nbits c.table c.dictBits = .sym i b.width

/-- Decode and encode agree for all 88 instructions, each in its word space. -/
def Obligations.DecodeOfEncodeIsTheInstruction : Prop :=
  ∀ (c : Context) (i : Instr), c.table.wf = true → i.wf c = true → decodeIn c i.space (encode c i) = some i

/-- With the standard table the other direction holds too: the decoded symbol is well-formed and encodes to the bits it
was read from. -/
def Obligations.EncodeOfDecodeIsTheBits : Prop :=
  ∀ (win nbits d lenVal : Nat) (i : Instr) (used : Nat), decodeInstr win nbits standardTable d = .sym i used →
    i.wf { table := standardTable, dictBits := d, lenVal := lenVal } = true ∧
      encode { table := standardTable, dictBits := d, lenVal := lenVal } i =
        .bits { value := win % 2 ^ used, width := used }

/-- R113 and R121 agree: whatever symbol the assembling rule has an instruction for, decoding that instruction's bits,
whatever follows them, gives the symbol. (model) Which fields the rule has for a table that is not the standard one is
log 22. -/
def Obligations.AssembledSymbolDecodesToItself : Prop :=
  ∀ (c : Context) (sym : Symbol) (i : Instr) (b : Bits) (above nbits : Nat), c.table.wf = true →
    instrOf c sym = some i → encode c i = .bits b → b.width ≤ nbits →
    decode (b.value + above * 2 ^ b.width) nbits c.table c.dictBits = .sym sym b.width

/-- With the standard table the assembling rule of R113 has an instruction for every literal, for END (R96: length code
15, extra bits 255) and for every length 2 to 518 with every distance the distance codes reach. -/
def Obligations.StandardSymbolsCanBeAssembled : Prop :=
  ∀ c : Context, c.table = standardTable →
    (∀ b : Byte, instrOf c (.literal b) = some (.lit b)) ∧ instrOf c .endMark = some (.endMark 15 255) ∧
    ∀ d l : Nat, 2 ≤ l → l ≤ 518 → 1 ≤ d → d ≤ 64 * 2 ^ trailingWidth (l - 2) c.dictBits →
      ∃ lc extra, lc < 16 ∧ lengthValue standardTable lc extra = l - 2 ∧
        instrOf c (.pair d l) = some (.ofPair lc extra ((d - 1) / 2 ^ trailingWidth (l - 2) c.dictBits)
          ((d - 1) % 2 ^ trailingWidth (l - 2) c.dictBits))

/-! The header. -/

/-- R141, accepted value: MODE 0 completes, writes no register and hands over to the dictionary byte. (model) The phase
is the model's, log 6; that it acts so given by hand in any phase, and with `fatal` set, is log 17, and on an operand
that is not the chunk's byte, log 23. -/
def Obligations.ModeZeroGoesOnToDict : Prop :=
  ∀ s : State, s.headerOutstanding = true → exec (.mode 0) s = .next { s with phase := .dictByte }

/-- R141, R206: any other mode byte raises UNSUPPORTED_MODE and writes nothing else but the stop reason. (model) The
stop reason is the model's field, which R176 sets for the pair only, log 6; that MODE acts so given by hand in any
phase, and raises again with `fatal` set, is log 17, and on an operand that is not the chunk's byte, log 23. -/
def Obligations.ModeNonzeroRaisesFatal : Prop :=
  ∀ (b : Byte) (s : State), s.headerOutstanding = true → b ≠ 0 →
    exec (.mode b) s = .next { s with fatal := true, faultCode := .unsupportedMode, reason := .fault }

/-- R142, R144: DICT completes, stores its byte unchanged and clears both header flags; both bytes are consumed.
(model) The phase it goes on to is the model's, log 6; that it acts so given by hand in any phase, and with `fatal` set,
is log 17, and on an operand that is not the chunk's byte, log 23. -/
def Obligations.DictIsStoredVerbatim : Prop :=
  ∀ (b : Byte) (s : State), s.headerOutstanding = true →
    exec (.dict b) s =
      .next { s with dictBits := b, needMode := false, needDict := false, pos := 2, phase := .swap }

/-- (model) With no header outstanding, a header byte given to exec does nothing: DEDUCED, log 17. R144's first line
says only that the command then looks at no header byte. -/
def Obligations.HeaderBytesDoNothingAfterTheHeader : Prop :=
  ∀ (b : Byte) (s : State), s.headerOutstanding = false →
    exec (.mode b) s = .next s ∧ exec (.dict b) s = .next s

/-- R202, R203: a chunk that ends before the mode byte or before the dictionary byte changes no state and consumes
nothing. -/
def Obligations.HeaderBackpressureChangesNothing : Prop :=
  ∀ s : State, s.Ready → s.headerOutstanding = true →
    (∃ t, exec (.processChunk []) s = .next t ∧ SameRegisters s t ∧ SameStorage s t ∧
      t.response = some (emptyResponse .needMode .none .none)) ∧
    (∃ t, exec (.processChunk [0]) s = .next t ∧ SameRegisters s t ∧ SameStorage s t ∧
      t.response = some (emptyResponse .needDictBits .none .none))

/-- R207: a chunk whose first byte is not 0 ends with FATAL, code 1; nothing is consumed and no other register is
written, whatever follows the byte. -/
def Obligations.UnsupportedModeIsFatal : Prop :=
  ∀ (b : Byte) (rest : List Byte) (s : State), s.Ready → s.headerOutstanding = true → b ≠ 0 →
    ∃ t, exec (.processChunk (b :: rest)) s = .next t ∧ t.fatal = true ∧ t.faultCode = .unsupportedMode ∧
      SameStreamRegisters s t ∧ SameStorage s t ∧
      t.response = some (emptyResponse .fatal .unsupportedMode .none)

/-- R142, R144 through PROCESS_CHUNK: with both header bytes there the command stores the second one, clears both
flags and consumes at least these two bytes. -/
def Obligations.HeaderIsConsumedAsOneUnit : Prop :=
  ∀ (dict : Byte) (rest : List Byte) (s : State), s.Inv → s.Ready → s.needMode = true →
    ∃ t r, exec (.processChunk (0 :: dict :: rest)) s = .next t ∧ t.dictBits = dict ∧ t.needMode = false ∧
      t.needDict = false ∧ t.response = some r ∧ 2 ≤ r.consumed

/-! Symbol effects. -/

/-- R154: LIT completes, uses 9 bits, writes its byte at the write cursor, advances the cursor (and with it the output
position, R31) by one, and changes no other byte and nothing else (R160). (model) That it acts so given by hand with
no command in progress or with `ended` or `fatal` set is log 19 (other states outside R37: log 25), and for a byte the
accumulator does not hold, log 23. -/
def Obligations.LiteralWritesItsByte : Prop :=
  ∀ (b : Byte) (s : State), s.writeOffs.toNat < 8192 → 9 ≤ s.nbits.toNat →
    ∃ t, exec (.lit b) s = .next t ∧
      t = { s with
        acc := s.acc >>> 9, nbits := s.nbits - 9, writeOffs := s.writeOffs + 1, totalOut := s.totalOut + 1
        window := t.window } ∧
      memRead t (physical s (s.writeOffs.setWidth 13)) = b ∧
      ∀ p, p ≠ physical s (s.writeOffs.setWidth 13) → memRead t p = memRead s p

/-- R157: END completes, uses the bits of its length part, sets `ended` and stops the loop; the window and everything
else are untouched. (model) R157's END is the case `lengthValue s.table lc extra = s.table.endValue`; that fields with
another length value, given to exec by hand, do the same is the model's choice, log 13. That END acts so given by hand
with no command in progress or with `ended` or `fatal` set (which leaves both flags, against R37) is log 19 (other
states outside R37: log 25), and for fields the accumulator does not hold, log 23. -/
def Obligations.EndMarkerEndsTheStream : Prop :=
  ∀ (lc extra : Nat) (s : State), s.writeOffs ≠ 8192 →
    1 + s.table.lenBitsAt lc + s.table.lenExtraBitsAt lc ≤ s.nbits.toNat →
    ∃ t, exec (.endMark lc extra) s = .next t ∧
      t = { s with acc := t.acc, nbits := t.nbits, ended := true, reason := .ended } ∧
      t.acc = s.acc >>> (1 + s.table.lenBitsAt lc + s.table.lenExtraBitsAt lc) ∧
      t.nbits.toNat = s.nbits.toNat - (1 + s.table.lenBitsAt lc + s.table.lenExtraBitsAt lc)

/-- R156: a pair (PAIR.L0 to PAIR.L15) whose distance exceeds 4096 raises DISTANCE_RANGE before its bits are consumed
and before anything is written. (model) The decoded distance part is dropped, log 7; that a pair given by hand with no
command in progress or with `ended` or `fatal` set raises too (and overwrites a stored code, against R36) is log 19
(other states outside R37: log 25), and for operands the accumulator does not hold, log 23. -/
def Obligations.FarPairRaisesDistanceRange : Prop :=
  ∀ (lc extra dc low : Nat) (s : State), lc < 16 → s.writeOffs ≠ 8192 →
    lengthValue s.table lc extra ≠ s.table.endValue →
    let tw := trailingWidth (lengthValue s.table lc extra) s.dictBits.toNat
    lengthUsed s.table lc + distanceUsed s.table dc tw ≤ s.nbits.toNat → pairDistance dc tw low > 4096 →
    exec (.ofPair lc extra dc low) s =
      .next { s with decoded := none, fatal := true, faultCode := .distanceRange, reason := .fault }

/-- R155, R152, R159: a pair (PAIR.L0 to PAIR.L15) that fits into the active half completes: it uses its bits, writes
its length in bytes at the write cursor, advances both cursors (and the output position, R31) by the length, and
changes no other byte and nothing else. Each byte equals the byte one distance behind it wherever this stream wrote
that one (R82); elsewhere it is what `sourceByte` draws, a free value. (model) The free value is log 1; the decoded
distance part is dropped, log 7; that a pair given by hand with no command in progress or with `ended` or `fatal` set
is copied too is log 19 (other states outside R37: log 25), and for operands the accumulator does not hold or beyond
their field's width, log 23. -/
def Obligations.PairThatFitsIsCopiedWhole : Prop :=
  ∀ (lc extra dc low : Nat) (s : State), lc < 16 → 4096 ≤ s.writeOffs.toNat →
    (s.offsXor = 0 ∨ s.offsXor = 4096) → lengthValue s.table lc extra ≠ s.table.endValue →
    let tw := trailingWidth (lengthValue s.table lc extra) s.dictBits.toNat
    let used := lengthUsed s.table lc + distanceUsed s.table dc tw
    let distance := pairDistance dc tw low
    let length := lengthValue s.table lc extra + 2
    used ≤ s.nbits.toNat → distance ≤ 4096 → s.writeOffs.toNat + length ≤ 8192 →
    ∃ t, exec (.ofPair lc extra dc low) s = .next t ∧
      t = { s with
        acc := t.acc, nbits := t.nbits, window := t.window, writeOffs := t.writeOffs, currentOffs := t.currentOffs
        remainingLen := 0, totalOut := s.totalOut + length, decoded := none } ∧
      t.acc = s.acc >>> used ∧ t.nbits.toNat = s.nbits.toNat - used ∧
      t.writeOffs.toNat = s.writeOffs.toNat + length ∧
      t.currentOffs.toNat = s.writeOffs.toNat - distance + length ∧
      (∀ k < length, distance ≤ s.totalOut + k → winRead t (BitVec.ofNat 13 (s.writeOffs.toNat + k)) =
        winRead t (BitVec.ofNat 13 (s.writeOffs.toNat + k - distance))) ∧
      (∀ k < length, winRead t (BitVec.ofNat 13 (s.writeOffs.toNat + k)) =
        sourceByte s.draw (s.totalOut + k) distance t.window
          (physical s (BitVec.ofNat 13 (s.writeOffs.toNat + k - distance))).toNat) ∧
      ∀ l : BitVec 13, l.toNat < s.writeOffs.toNat ∨ s.writeOffs.toNat + length ≤ l.toNat →
        winRead t l = winRead s l

/-- R155, R152: a pair (PAIR.L0 to PAIR.L15) longer than the room in the active half fills the half, keeps the rest of
its length and its next source offset, marks the swap as pending and stops the loop with HALF_FULL. The bytes are
those of `PairThatFitsIsCopiedWhole`. (model) The free value is log 1; the decoded distance part is dropped, log 7;
that a pair given by hand with no command in progress or with `ended` or `fatal` set is copied too is log 19 (other
states outside R37: log 25), and for operands the accumulator does not hold or beyond their field's width, log 23. -/
def Obligations.PairThatDoesNotFitIsCut : Prop :=
  ∀ (lc extra dc low : Nat) (s : State), lc < 16 → 4096 ≤ s.writeOffs.toNat → s.writeOffs.toNat < 8192 →
    (s.offsXor = 0 ∨ s.offsXor = 4096) → lengthValue s.table lc extra ≠ s.table.endValue →
    let tw := trailingWidth (lengthValue s.table lc extra) s.dictBits.toNat
    let used := lengthUsed s.table lc + distanceUsed s.table dc tw
    let distance := pairDistance dc tw low
    let length := lengthValue s.table lc extra + 2
    used ≤ s.nbits.toNat → distance ≤ 4096 → length ≤ 65535 → 8192 < s.writeOffs.toNat + length →
    ∃ t, exec (.ofPair lc extra dc low) s = .next t ∧
      t = { s with
        acc := t.acc, nbits := t.nbits, window := t.window, writeOffs := 8192, currentOffs := t.currentOffs
        remainingLen := t.remainingLen, totalOut := s.totalOut + (8192 - s.writeOffs.toNat), swapPending := true
        reason := .halfFull, decoded := none } ∧
      t.acc = s.acc >>> used ∧ t.nbits.toNat = s.nbits.toNat - used ∧
      t.remainingLen.toNat = length - (8192 - s.writeOffs.toNat) ∧ t.currentOffs.toNat = 8192 - distance ∧
      (∀ k < 8192 - s.writeOffs.toNat, distance ≤ s.totalOut + k →
        winRead t (BitVec.ofNat 13 (s.writeOffs.toNat + k)) =
          winRead t (BitVec.ofNat 13 (s.writeOffs.toNat + k - distance))) ∧
      (∀ k < 8192 - s.writeOffs.toNat, winRead t (BitVec.ofNat 13 (s.writeOffs.toNat + k)) =
        sourceByte s.draw (s.totalOut + k) distance t.window
          (physical s (BitVec.ofNat 13 (s.writeOffs.toNat + k - distance))).toNat) ∧
      ∀ l : BitVec 13, l.toNat < s.writeOffs.toNat → winRead t l = winRead s l

/-- R97: pair fields whose length value is the END sentinel are the end marker. (model) Log 13; as for every symbol
given by hand, any state is log 19 and any operands are log 23. -/
def Obligations.PairFieldsOfTheSentinelAreEnd : Prop :=
  ∀ (lc extra dc low : Nat) (s : State), lc < 16 → s.decoded = none →
    lengthValue s.table lc extra = s.table.endValue →
    exec (.ofPair lc extra dc low) s = exec (.endMark lc extra) s

/-- R125: in a window that holds a pair whose bits are all there, DIST.D0 to DIST.D63 completes with the distance, the
length and the bits of the pair, and writes no register (R128). (model) The result is kept in `decoded`, log 7; that
`dc` and `low` given by hand count where the window holds others is log 23, and that DIST acts so with no command in
progress or with `ended` or `fatal` set, log 19 (other states outside R37: log 25). -/
def Obligations.DistanceFieldYieldsThePair : Prop :=
  ∀ (dc low : Nat) (s : State), dc < 64 → field s.acc.toNat 0 1 = 1 →
    let len := lengthPart s.table s.acc.toNat
    let tw := if len.val = 0 then 2 else s.dictBits.toNat
    let used := len.used + s.table.distBitsAt dc + tw
    len.val ≠ s.table.endValue → used ≤ s.nbits.toNat →
    exec (.ofDist dc low) s = .next { s with
      decoded := some { code := dc, low := low, distance := (dc <<< tw ||| low) + 1, length := len.val + 2
                        used := used } }

/-- R125, R126: with bits missing DIST.D0 to DIST.D63 stops the loop for NEED_BITS and changes nothing else; where the
window holds no pair it faults by name. (model) The fault is log 8; that `dc` given by hand counts where the window
holds another is log 23, and that DIST acts so with no command in progress or with `ended` or `fatal` set, log 19
(other states outside R37: log 25). -/
def Obligations.DistanceFieldStopsWithoutItsPair : Prop :=
  ∀ (dc low : Nat) (s : State), dc < 64 →
    let len := lengthPart s.table s.acc.toNat
    let tw := if len.val = 0 then 2 else s.dictBits.toNat
    (field s.acc.toNat 0 1 = 1 → len.val ≠ s.table.endValue →
      s.nbits.toNat < len.used + s.table.distBitsAt dc + tw →
      exec (.ofDist dc low) s = .next { s with reason := .needBits }) ∧
    (field s.acc.toNat 0 1 = 0 ∨ len.val = s.table.endValue →
      exec (.ofDist dc low) s = .fault .distanceOutsidePair)

/-- R176, R211: with the half full a literal, the end marker and a pair (PAIR.L0 to PAIR.L15) are not applied, the
swap is deferred, whatever their fields, the end marker's own included; with bits missing nothing but the stop reason
changes. (model) These tests precede a symbol given to exec by hand, log 12, with no command in progress or with
`ended` or `fatal` set too, log 19 (other states outside R37: log 25), and for operands the accumulator does not hold,
log 23; pair fields with the sentinel's value are END, log 13; the decoded distance part of a pair is dropped, log 7.
-/
def Obligations.SymbolsStopBeforeAnyEffect : Prop :=
  ∀ (b : Byte) (lc extra dc low : Nat) (s : State), lc < 16 →
    let tw := trailingWidth (lengthValue s.table lc extra) s.dictBits.toNat
    (s.writeOffs = 8192 →
      exec (.lit b) s = .next { s with swapPending := true, reason := .halfFull } ∧
      exec (.endMark lc extra) s = .next { s with swapPending := true, reason := .halfFull } ∧
      exec (.ofPair lc extra dc low) s =
        .next { s with swapPending := true, reason := .halfFull, decoded := none }) ∧
    (s.writeOffs ≠ 8192 →
      (s.nbits.toNat < 9 → exec (.lit b) s = .next { s with reason := .needBits }) ∧
      (s.nbits.toNat < lengthUsed s.table lc → exec (.endMark lc extra) s = .next { s with reason := .needBits }) ∧
      (lengthValue s.table lc extra ≠ s.table.endValue →
        s.nbits.toNat < lengthUsed s.table lc + distanceUsed s.table dc tw →
        exec (.ofPair lc extra dc low) s = .next { s with reason := .needBits, decoded := none }))

/-! The shared procedures. -/

/-- R66, both directions: a swap renames every window byte by half its coordinate and moves none. -/
def Obligations.SwapRenamesTheHalves : Prop :=
  ∀ (s : State) (l : BitVec 13),
    (4096 ≤ l.toNat → winRead (doSwap s) (l - 4096) = winRead s l) ∧
    (l.toNat < 4096 → winRead (doSwap s) (l + 4096) = winRead s l)

/-- R45, R82, R162: RESET moves the output position behind every byte of the window, so whatever the first pair after it
reads is a free value: the stale one of the byte an earlier stream left, or the power-on one. (model) The two opaque
constants are log 1. -/
def Obligations.SourcesBeforeTheStreamAreFree : Prop :=
  ∀ (s t : State) (distance : Nat) (l : BitVec 13), s.phase = .idle → exec .reset s = .next t → 1 ≤ distance →
    sourceByte t.draw t.totalOut distance t.window (physical t l).toNat =
      match cellRead s.window l.toNat with
      | some b => Config.staleByte s.draw l.toNat b
      | none => Config.powerOnByte s.draw l.toNat

/-- R64, R65: a read gives the byte last written there, and a write leaves every other coordinate alone. -/
def Obligations.WindowReadsTheLastWrite : Prop :=
  ∀ (s : State) (l m : BitVec 13) (b : Byte),
    winRead (winWrite l b s) l = b ∧ (m ≠ l → winRead (winWrite l b s) m = winRead s m)

/-- R153: a refill takes the next bytes of the chunk in order, each above the valid bits, and ends with the chunk
exhausted or with 57 to 64 bits. The position in the stream (R30) stays. -/
def Obligations.RefillTakesBytesAboveTheValidBits : Prop :=
  ∀ s : State, s.nbits.toNat ≤ 64 → s.acc.toNat < 2 ^ s.nbits.toNat → s.pos ≤ s.chunk.length →
    ∃ n, (refill s).pos = s.pos + n ∧ s.pos + n ≤ s.chunk.length ∧
      (refill s).nbits.toNat = s.nbits.toNat + 8 * n ∧ (refill s).nbits.toNat ≤ 64 ∧
      (refill s).acc.toNat = s.acc.toNat +
        2 ^ s.nbits.toNat * Nat.ofDigits 256 (((s.chunk.drop s.pos).take n).map BitVec.toNat) ∧
      (s.pos + n = s.chunk.length ∨ 57 ≤ (refill s).nbits.toNat) ∧
      (refill s).streamBitpos = s.streamBitpos

/-! The commands. -/

/-- R173, R40: IS_ENDED completes, answers the flag `ended` and changes no register, byte or table. (model) The response
of the command before is dropped, as R39 and R77 end its validity when the next command starts, log 5. -/
def Obligations.IsEndedAnswersTheFlag : Prop :=
  ∀ s : State, s.phase = .idle → exec .isEnded s = .next { s with response := none, answer := some s.ended }

/-- R240: a command never runs inside another. (model) It is refused by name, log 9. -/
def Obligations.OverlappingCommandsAreRefused : Prop :=
  ∀ (T : CodeTable) (chunk : List Byte) (s : State), s.phase ≠ .idle →
    exec .isEnded s = .refused .commandOverlap ∧ exec .reset s = .refused .commandOverlap ∧
      exec (.new T) s = .refused .commandOverlap ∧ exec (.processChunk chunk) s = .refused .commandOverlap

/-- R175: after a fatal condition PROCESS_CHUNK answers FATAL with the stored code, after END it answers OK with END;
in both it changes nothing, the fatal check first; in a good state the two flags are never both set. -/
def Obligations.EarlyOutsChangeNothing : Prop :=
  ∀ (chunk : List Byte) (s : State), s.phase = .idle → (s.fatal = true ∨ s.ended = true) →
    ∃ t, exec (.processChunk chunk) s = .next t ∧ SameRegisters s t ∧ SameStorage s t ∧
      t.response = some (if s.fatal then emptyResponse .fatal s.faultCode .none else emptyResponse .ok .none .ended) ∧
      (s.Inv → ¬(s.ended = true ∧ s.fatal = true))

/-- R174, R183: from every good state PROCESS_CHUNK completes, with any chunk; no command is in progress afterwards and
the response is in range: no more consumed than offered, at most a half produced. -/
def Obligations.ProcessChunkAlwaysCompletes : Prop :=
  ∀ (chunk : List Byte) (s : State), s.Inv → s.phase = .idle →
    ∃ t r, exec (.processChunk chunk) s = .next t ∧ t.Inv ∧ t.phase = .idle ∧ t.response = some r ∧
      r.consumed ≤ chunk.length ∧ r.outLen.toNat ≤ 4096

/-- R179: when the status is OK the stop is END, else HALF_FULL, else NEED_BITS, as the flags after the command say;
the status is FATAL exactly when `fatal` is set, with its code, and then the stop is NONE. -/
def Obligations.ResponseFollowsTheFlags : Prop :=
  ∀ (chunk : List Byte) (s t : State) (r : Response), s.Inv → s.phase = .idle →
    exec (.processChunk chunk) s = .next t → t.response = some r →
    (r.status = .ok → r.faultCode = .none ∧
      r.stop = if t.ended then .ended else if t.swapPending then .halfFull else .needBits) ∧
    (r.status = .fatal ↔ t.fatal = true) ∧ (r.status = .fatal → r.faultCode = t.faultCode) ∧
    (r.status ≠ .ok → r.stop = .none) ∧
    (r.status = .needMode ∨ r.status = .needDictBits → t.needMode = true ∧ r.consumed = 0 ∧ r.outLen = 0)

/-- R178, with R29: the output slice lies in one half, below its end, and every window byte outside the slice reads as
before the command; the output position advances by the slice's length (R31) and the input position by the bytes
consumed (R30); the CodeTable and the pending commands stay, and after the header so do `dict_bits` and the header
flags. -/
def Obligations.CommandWritesOnlyItsOutputSlice : Prop :=
  ∀ (chunk : List Byte) (s t : State) (r : Response), s.Inv → s.phase = .idle →
    exec (.processChunk chunk) s = .next t → t.response = some r →
    (r.outOff.toNat / 4096 + 1) * 4096 ≥ r.outOff.toNat + r.outLen.toNat ∧
      SameWindowOutside r.outOff.toNat r.outLen.toNat s t ∧ t.totalOut = s.totalOut + r.outLen.toNat ∧
      t.totalIn = s.totalIn + r.consumed ∧ t.table = s.table ∧ t.draw = s.draw ∧ t.port = s.port ∧
      (s.needMode = false → t.dictBits = s.dictBits ∧ t.needMode = false ∧ t.needDict = false)

/-- R204, R190: a command that stops for NEED_BITS has consumed the whole chunk, unless the stream is stalled with 57 or
more bits held. -/
def Obligations.NeedBitsMeansChunkExhaustedOrStalled : Prop :=
  ∀ (chunk : List Byte) (s t : State) (r : Response), s.Inv → s.phase = .idle →
    exec (.processChunk chunk) s = .next t → t.response = some r → r.stop = .needBits →
    (∃ n, decode t.acc.toNat t.nbits.toNat t.table t.dictBits.toNat = .needBits n) ∧
      (r.consumed = chunk.length ∨ t.Stalled)

/-- R190: on a stalled stream every later PROCESS_CHUNK answers OK with NEED_BITS, consumes nothing, produces nothing
and changes no register. -/
def Obligations.StalledStreamStaysStalled : Prop :=
  ∀ (chunk : List Byte) (s : State), s.Inv → s.Ready → s.needMode = false → s.swapPending = false → s.Stalled →
    ∃ t r, exec (.processChunk chunk) s = .next t ∧ SameRegisters s t ∧ SameStorage s t ∧ t.response = some r ∧
      r.status = .ok ∧ r.stop = .needBits ∧ r.consumed = 0 ∧ r.outLen = 0

/-- R187: what a PROCESS_CHUNK does to the registers and what it answers do not depend on the bytes the window holds. -/
def Obligations.RegistersDoNotDependOnWindowBytes : Prop :=
  ∀ (chunk : List Byte) (s t : State) (window : List Host.Cell) (draw : Nat),
    exec (.processChunk chunk) s = .next t →
    ∃ t', exec (.processChunk chunk) { s with window := window, draw := draw } = .next t' ∧
      t' = { t with window := t'.window, draw := draw }

/-- R184 and R220 where a chunk ends: a command that stops for NEED_BITS with its chunk exhausted, followed by one with
further bytes, does what one command with all the bytes does; the two output slices are adjacent. -/
def Obligations.SplitChunkEqualsWholeChunk : Prop :=
  ∀ (first more : List Byte) (s t u v : State) (r : Response), s.Inv → s.phase = .idle →
    exec (.processChunk first) s = .next t → t.response = some r → r.stop = .needBits → r.consumed = first.length →
    exec (.processChunk more) t = .next u → exec (.processChunk (first ++ more)) s = .next v →
    ∃ q, u.response = some q ∧ q.outOff = r.outOff + r.outLen ∧
      v = { u with response := some { q with
        consumed := first.length + q.consumed, outOff := r.outOff, outLen := r.outLen + q.outLen } }

/-- R184 where a command stops for HALF_FULL, END or FATAL: more bytes at the end of the chunk change nothing but how
far the accumulator is filled ahead, with the next bytes of the chunk (R44). -/
def Obligations.AppendedBytesDoNotChangeAStop : Prop :=
  ∀ (first more : List Byte) (s t v : State) (r : Response), s.Inv → s.phase = .idle →
    exec (.processChunk first) s = .next t → t.response = some r →
    r.stop = .halfFull ∨ r.stop = .ended ∨ r.status = .fatal →
    exec (.processChunk (first ++ more)) s = .next v →
    ∃ ahead, ahead ≤ more.length ∧
      v = { t with
        acc := v.acc, nbits := v.nbits, totalIn := t.totalIn + ahead
        response := some { r with consumed := r.consumed + ahead } } ∧
      v.nbits.toNat = t.nbits.toNat + 8 * ahead ∧
      v.acc.toNat = t.acc.toNat + 2 ^ t.nbits.toNat *
        Nat.ofDigits 256 ((((first ++ more).drop r.consumed).take ahead).map BitVec.toNat)

/-- R186, symbol by symbol against the reference decoder: where the window shows the end of the output, a literal and
a pair (PAIR.L0 to PAIR.L15, whole or cut), and the swap with the resumed copy that follows a cut, leave it showing
the end of the reference decoder's output. (model) That a symbol acts so given by hand with no command in progress is
log 19, and for operands the accumulator does not hold, log 23. -/
def Obligations.SymbolsFollowTheReferenceDecoder : Prop :=
  ∀ (s : State) (out : List Byte), s.Shows out →
    (∀ b : Byte, s.Running → s.writeOffs ≠ 8192 → 9 ≤ s.nbits.toNat →
      ∃ t, exec (.lit b) s = .next t ∧ t.Shows (out ++ [b])) ∧
    (∀ lc extra dc low : Nat, s.Running → s.writeOffs ≠ 8192 → s.table.wf = true →
      pairFieldsOk s.table s.dictBits.toNat lc extra dc low = true →
      let tw := trailingWidth (lengthValue s.table lc extra) s.dictBits.toNat
      let distance := pairDistance dc tw low
      lengthUsed s.table lc + distanceUsed s.table dc tw ≤ s.nbits.toNat → distance ≤ 4096 →
      distance ≤ out.length →
      ∃ t, exec (.ofPair lc extra dc low) s = .next t ∧
        t.Shows (referencePair distance (lengthValue s.table lc extra + 2 - t.remainingLen.toNat) out)) ∧
    (s.Boundary → s.swapPending = true → s.remainingLen = 0 ∨ 8192 - s.currentOffs.toNat ≤ out.length →
      (enterLoop s).Shows
        (referencePair (8192 - s.currentOffs.toNat) (s.remainingLen.toNat - (enterLoop s).remainingLen.toNat) out))

/-! The machine. -/

/-- A step runs the decoded instruction: the next command of the host, the header bytes, in the loop a literal or the
end marker, and of a pair first its distance part and then, on that result, the pair. (model) How a run is cut into
steps is the model's: the port and one step per command, log 4; the phases, log 6; two steps for a pair, log 7, where
R182 has one for the whole iteration. -/
def Obligations.StepRunsTheDecodedInstruction : Prop :=
  (∀ (s : State) (r : CommandRecord) (rest : List CommandRecord), s.phase = .idle → s.port = r :: rest →
    step s = exec (decodeCommand r) { s with port := rest }) ∧
  (∀ (s : State) (b : Byte), s.phase = .modeByte → s.reason = .none → s.chunk[0]? = some b →
    step s = exec (.mode b) s) ∧
  (∀ (s : State) (b : Byte), s.phase = .dictByte → s.chunk[1]? = some b → step s = exec (.dict b) s) ∧
  (∀ (s : State) (i : Instr) (used : Nat), s.phase = .loop → s.reason = .none → s.decoded = none →
    s.writeOffs ≠ 8192 →
    decodeStage (refill s).acc.toNat (refill s).nbits.toNat s.table s.dictBits.toNat = .sym i used →
    step s = exec i (refill s)) ∧
  ∀ (s : State) (dist : DistancePart), s.phase = .loop → s.reason = .none → s.decoded = some dist →
    step s = exec (.ofPair (lengthPart s.table s.acc.toNat).code (lengthPart s.table s.acc.toNat).extra
      dist.code dist.low) s

/-- The two stages of a pair are the decoder's pair: where `decode` returns a pair, running its distance part leaves
that distance, length and number of bits in `decoded`. (model) The two stages are log 7; with no command in progress
or with `ended` or `fatal` set, log 19. -/
def Obligations.StagedPairIsTheDecodedPair : Prop :=
  ∀ (s : State) (dist len used : Nat), s.table.wf = true →
    decode s.acc.toNat s.nbits.toNat s.table s.dictBits.toNat = .sym (.pair dist len) used →
    ∃ i d, decodeStage s.acc.toNat s.nbits.toNat s.table s.dictBits.toNat = .sym i used ∧ i.space = .distance ∧
      exec i s = .next { s with decoded := some d } ∧ d.distance = dist ∧ d.length = len ∧ d.used = used

/-- The machine never faults: no step from any state does. (model) The one fault there is, of a distance sub-field
outside a pair, is the model's, log 8. -/
def Obligations.StepNeverFaults : Prop := ∀ (s : State) (f : Fault), step s ≠ .fault f

/-- The machine refuses one thing only: a NEW whose table is not well-formed (R171, R209). (model) The refusal's name
and form are log 9; that a step takes a NEW from the port is log 4. -/
def Obligations.StepRefusesOnlyMalformedTables : Prop :=
  ∀ (s : State) (r : Refusal), step s = .refused r →
    r = .malformedTable ∧ s.phase = .idle ∧ ∃ T rest, T.wf = false ∧ (s.port.map decodeCommand) = .new T :: rest

/-- R174, R182: the small steps of a PROCESS_CHUNK reach what its big-step definition answers. (model) How the command
is cut into small steps is the model's: `startChunk`, the header, swap and closing steps and the phases, log 6; two
steps for a pair, log 7, where R182 has one step for the whole iteration. -/
def Obligations.SmallStepsEqualProcessChunk : Prop :=
  ∀ (chunk : List Byte) (s t : State), s.Inv → s.phase = .idle → exec (.processChunk chunk) s = .next t →
    ∃ n, Host.Core.run Sys2Proof.core n (startChunk chunk s) = .next t

/-- Every step keeps the invariant, from every state that has it. (model) What it says inside a command speaks of the
model's own fields, logs 6 and 7. -/
def Obligations.EveryStepKeepsTheInvariant : Prop :=
  ∀ s t : State, s.Inv → step s = .next t → t.Inv

/-- R35, R36, R213: only RESET and NEW leave the fatal or the ended state; no other instruction clears either flag.
(model) For header bytes and symbols given by hand in such a state it rests on logs 17 and 19. -/
def Obligations.OnlyResetAndNewClearFatalAndEnded : Prop :=
  ∀ (i : Instr) (s t : State), exec i s = .next t → i ≠ .reset → (∀ T, i ≠ .new T) →
    (s.fatal = true → t.fatal = true) ∧ (s.ended = true → t.ended = true)

/-- R28, R33, R41: the CodeTable is written by NEW only; `dict_bits` and the header flags by DICT, PROCESS_CHUNK, RESET
and NEW only. (model) For instructions given by hand it rests on logs 17, 19 and 23. -/
def Obligations.TableAndHeaderHaveFewWriters : Prop :=
  ∀ (i : Instr) (s t : State), exec i s = .next t →
    ((∀ T, i ≠ .new T) → t.table = s.table) ∧
    ((∀ T, i ≠ .new T) → i ≠ .reset → (∀ b, i ≠ .dict b) → (∀ chunk, i ≠ .processChunk chunk) →
      t.dictBits = s.dictBits ∧ t.needMode = s.needMode ∧ t.needDict = s.needDict)

/-- R65: no symbol writes the history half. (model) For symbols given by hand in any state with any operands it rests on
logs 19 and 23. -/
def Obligations.HistoryHalfIsReadOnly : Prop :=
  ∀ (i : Instr) (s t : State) (l : BitVec 13), i.space = .symbol → (s.offsXor = 0 ∨ s.offsXor = 4096) →
    4096 ≤ s.writeOffs.toNat → s.writeOffs.toNat ≤ 8192 → exec i s = .next t → l.toNat < 4096 →
    winRead t l = winRead s l
end

