-- ==== Sys2Proof/Laws/State.lean ====
section
/-!
SUPPORT. One lemma per field per update, true by rfl, so that no later proof unfolds a record update.
-/

namespace Sys2Proof.Machine

/-! stopNeedBits -/

@[simp] theorem stopNeedBits_offsXor (s : State) : (stopNeedBits s).offsXor = s.offsXor := rfl
@[simp] theorem stopNeedBits_writeOffs (s : State) : (stopNeedBits s).writeOffs = s.writeOffs := rfl
@[simp] theorem stopNeedBits_acc (s : State) : (stopNeedBits s).acc = s.acc := rfl
@[simp] theorem stopNeedBits_nbits (s : State) : (stopNeedBits s).nbits = s.nbits := rfl
@[simp] theorem stopNeedBits_remainingLen (s : State) : (stopNeedBits s).remainingLen = s.remainingLen := rfl
@[simp] theorem stopNeedBits_currentOffs (s : State) : (stopNeedBits s).currentOffs = s.currentOffs := rfl
@[simp] theorem stopNeedBits_dictBits (s : State) : (stopNeedBits s).dictBits = s.dictBits := rfl
@[simp] theorem stopNeedBits_needMode (s : State) : (stopNeedBits s).needMode = s.needMode := rfl
@[simp] theorem stopNeedBits_needDict (s : State) : (stopNeedBits s).needDict = s.needDict := rfl
@[simp] theorem stopNeedBits_swapPending (s : State) : (stopNeedBits s).swapPending = s.swapPending := rfl
@[simp] theorem stopNeedBits_ended (s : State) : (stopNeedBits s).ended = s.ended := rfl
@[simp] theorem stopNeedBits_fatal (s : State) : (stopNeedBits s).fatal = s.fatal := rfl
@[simp] theorem stopNeedBits_faultCode (s : State) : (stopNeedBits s).faultCode = s.faultCode := rfl
@[simp] theorem stopNeedBits_totalIn (s : State) : (stopNeedBits s).totalIn = s.totalIn := rfl
@[simp] theorem stopNeedBits_totalOut (s : State) : (stopNeedBits s).totalOut = s.totalOut := rfl
@[simp] theorem stopNeedBits_window (s : State) : (stopNeedBits s).window = s.window := rfl
@[simp] theorem stopNeedBits_table (s : State) : (stopNeedBits s).table = s.table := rfl
@[simp] theorem stopNeedBits_draw (s : State) : (stopNeedBits s).draw = s.draw := rfl
@[simp] theorem stopNeedBits_port (s : State) : (stopNeedBits s).port = s.port := rfl
@[simp] theorem stopNeedBits_response (s : State) : (stopNeedBits s).response = s.response := rfl
@[simp] theorem stopNeedBits_answer (s : State) : (stopNeedBits s).answer = s.answer := rfl
@[simp] theorem stopNeedBits_phase (s : State) : (stopNeedBits s).phase = s.phase := rfl
@[simp] theorem stopNeedBits_chunk (s : State) : (stopNeedBits s).chunk = s.chunk := rfl
@[simp] theorem stopNeedBits_pos (s : State) : (stopNeedBits s).pos = s.pos := rfl
@[simp] theorem stopNeedBits_start (s : State) : (stopNeedBits s).start = s.start := rfl
@[simp] theorem stopNeedBits_reason (s : State) : (stopNeedBits s).reason = .needBits := rfl
@[simp] theorem stopNeedBits_decoded (s : State) : (stopNeedBits s).decoded = s.decoded := rfl

/-! stopHalfFull -/

@[simp] theorem stopHalfFull_offsXor (s : State) : (stopHalfFull s).offsXor = s.offsXor := rfl
@[simp] theorem stopHalfFull_writeOffs (s : State) : (stopHalfFull s).writeOffs = s.writeOffs := rfl
@[simp] theorem stopHalfFull_acc (s : State) : (stopHalfFull s).acc = s.acc := rfl
@[simp] theorem stopHalfFull_nbits (s : State) : (stopHalfFull s).nbits = s.nbits := rfl
@[simp] theorem stopHalfFull_remainingLen (s : State) : (stopHalfFull s).remainingLen = s.remainingLen := rfl
@[simp] theorem stopHalfFull_currentOffs (s : State) : (stopHalfFull s).currentOffs = s.currentOffs := rfl
@[simp] theorem stopHalfFull_dictBits (s : State) : (stopHalfFull s).dictBits = s.dictBits := rfl
@[simp] theorem stopHalfFull_needMode (s : State) : (stopHalfFull s).needMode = s.needMode := rfl
@[simp] theorem stopHalfFull_needDict (s : State) : (stopHalfFull s).needDict = s.needDict := rfl
@[simp] theorem stopHalfFull_swapPending (s : State) : (stopHalfFull s).swapPending = true := rfl
@[simp] theorem stopHalfFull_ended (s : State) : (stopHalfFull s).ended = s.ended := rfl
@[simp] theorem stopHalfFull_fatal (s : State) : (stopHalfFull s).fatal = s.fatal := rfl
@[simp] theorem stopHalfFull_faultCode (s : State) : (stopHalfFull s).faultCode = s.faultCode := rfl
@[simp] theorem stopHalfFull_totalIn (s : State) : (stopHalfFull s).totalIn = s.totalIn := rfl
@[simp] theorem stopHalfFull_totalOut (s : State) : (stopHalfFull s).totalOut = s.totalOut := rfl
@[simp] theorem stopHalfFull_window (s : State) : (stopHalfFull s).window = s.window := rfl
@[simp] theorem stopHalfFull_table (s : State) : (stopHalfFull s).table = s.table := rfl
@[simp] theorem stopHalfFull_draw (s : State) : (stopHalfFull s).draw = s.draw := rfl
@[simp] theorem stopHalfFull_port (s : State) : (stopHalfFull s).port = s.port := rfl
@[simp] theorem stopHalfFull_response (s : State) : (stopHalfFull s).response = s.response := rfl
@[simp] theorem stopHalfFull_answer (s : State) : (stopHalfFull s).answer = s.answer := rfl
@[simp] theorem stopHalfFull_phase (s : State) : (stopHalfFull s).phase = s.phase := rfl
@[simp] theorem stopHalfFull_chunk (s : State) : (stopHalfFull s).chunk = s.chunk := rfl
@[simp] theorem stopHalfFull_pos (s : State) : (stopHalfFull s).pos = s.pos := rfl
@[simp] theorem stopHalfFull_start (s : State) : (stopHalfFull s).start = s.start := rfl
@[simp] theorem stopHalfFull_reason (s : State) : (stopHalfFull s).reason = .halfFull := rfl
@[simp] theorem stopHalfFull_decoded (s : State) : (stopHalfFull s).decoded = s.decoded := rfl

/-! stopEnded -/

@[simp] theorem stopEnded_offsXor (s : State) : (stopEnded s).offsXor = s.offsXor := rfl
@[simp] theorem stopEnded_writeOffs (s : State) : (stopEnded s).writeOffs = s.writeOffs := rfl
@[simp] theorem stopEnded_acc (s : State) : (stopEnded s).acc = s.acc := rfl
@[simp] theorem stopEnded_nbits (s : State) : (stopEnded s).nbits = s.nbits := rfl
@[simp] theorem stopEnded_remainingLen (s : State) : (stopEnded s).remainingLen = s.remainingLen := rfl
@[simp] theorem stopEnded_currentOffs (s : State) : (stopEnded s).currentOffs = s.currentOffs := rfl
@[simp] theorem stopEnded_dictBits (s : State) : (stopEnded s).dictBits = s.dictBits := rfl
@[simp] theorem stopEnded_needMode (s : State) : (stopEnded s).needMode = s.needMode := rfl
@[simp] theorem stopEnded_needDict (s : State) : (stopEnded s).needDict = s.needDict := rfl
@[simp] theorem stopEnded_swapPending (s : State) : (stopEnded s).swapPending = s.swapPending := rfl
@[simp] theorem stopEnded_ended (s : State) : (stopEnded s).ended = true := rfl
@[simp] theorem stopEnded_fatal (s : State) : (stopEnded s).fatal = s.fatal := rfl
@[simp] theorem stopEnded_faultCode (s : State) : (stopEnded s).faultCode = s.faultCode := rfl
@[simp] theorem stopEnded_totalIn (s : State) : (stopEnded s).totalIn = s.totalIn := rfl
@[simp] theorem stopEnded_totalOut (s : State) : (stopEnded s).totalOut = s.totalOut := rfl
@[simp] theorem stopEnded_window (s : State) : (stopEnded s).window = s.window := rfl
@[simp] theorem stopEnded_table (s : State) : (stopEnded s).table = s.table := rfl
@[simp] theorem stopEnded_draw (s : State) : (stopEnded s).draw = s.draw := rfl
@[simp] theorem stopEnded_port (s : State) : (stopEnded s).port = s.port := rfl
@[simp] theorem stopEnded_response (s : State) : (stopEnded s).response = s.response := rfl
@[simp] theorem stopEnded_answer (s : State) : (stopEnded s).answer = s.answer := rfl
@[simp] theorem stopEnded_phase (s : State) : (stopEnded s).phase = s.phase := rfl
@[simp] theorem stopEnded_chunk (s : State) : (stopEnded s).chunk = s.chunk := rfl
@[simp] theorem stopEnded_pos (s : State) : (stopEnded s).pos = s.pos := rfl
@[simp] theorem stopEnded_start (s : State) : (stopEnded s).start = s.start := rfl
@[simp] theorem stopEnded_reason (s : State) : (stopEnded s).reason = .ended := rfl
@[simp] theorem stopEnded_decoded (s : State) : (stopEnded s).decoded = s.decoded := rfl

/-! clearHeader -/

@[simp] theorem clearHeader_offsXor (s : State) : (clearHeader s).offsXor = s.offsXor := rfl
@[simp] theorem clearHeader_writeOffs (s : State) : (clearHeader s).writeOffs = s.writeOffs := rfl
@[simp] theorem clearHeader_acc (s : State) : (clearHeader s).acc = s.acc := rfl
@[simp] theorem clearHeader_nbits (s : State) : (clearHeader s).nbits = s.nbits := rfl
@[simp] theorem clearHeader_remainingLen (s : State) : (clearHeader s).remainingLen = s.remainingLen := rfl
@[simp] theorem clearHeader_currentOffs (s : State) : (clearHeader s).currentOffs = s.currentOffs := rfl
@[simp] theorem clearHeader_dictBits (s : State) : (clearHeader s).dictBits = s.dictBits := rfl
@[simp] theorem clearHeader_needMode (s : State) : (clearHeader s).needMode = false := rfl
@[simp] theorem clearHeader_needDict (s : State) : (clearHeader s).needDict = false := rfl
@[simp] theorem clearHeader_swapPending (s : State) : (clearHeader s).swapPending = s.swapPending := rfl
@[simp] theorem clearHeader_ended (s : State) : (clearHeader s).ended = s.ended := rfl
@[simp] theorem clearHeader_fatal (s : State) : (clearHeader s).fatal = s.fatal := rfl
@[simp] theorem clearHeader_faultCode (s : State) : (clearHeader s).faultCode = s.faultCode := rfl
@[simp] theorem clearHeader_totalIn (s : State) : (clearHeader s).totalIn = s.totalIn := rfl
@[simp] theorem clearHeader_totalOut (s : State) : (clearHeader s).totalOut = s.totalOut := rfl
@[simp] theorem clearHeader_window (s : State) : (clearHeader s).window = s.window := rfl
@[simp] theorem clearHeader_table (s : State) : (clearHeader s).table = s.table := rfl
@[simp] theorem clearHeader_draw (s : State) : (clearHeader s).draw = s.draw := rfl
@[simp] theorem clearHeader_port (s : State) : (clearHeader s).port = s.port := rfl
@[simp] theorem clearHeader_response (s : State) : (clearHeader s).response = s.response := rfl
@[simp] theorem clearHeader_answer (s : State) : (clearHeader s).answer = s.answer := rfl
@[simp] theorem clearHeader_phase (s : State) : (clearHeader s).phase = s.phase := rfl
@[simp] theorem clearHeader_chunk (s : State) : (clearHeader s).chunk = s.chunk := rfl
@[simp] theorem clearHeader_pos (s : State) : (clearHeader s).pos = s.pos := rfl
@[simp] theorem clearHeader_start (s : State) : (clearHeader s).start = s.start := rfl
@[simp] theorem clearHeader_reason (s : State) : (clearHeader s).reason = s.reason := rfl
@[simp] theorem clearHeader_decoded (s : State) : (clearHeader s).decoded = s.decoded := rfl

/-! memWrite -/

@[simp] theorem memWrite_offsXor (p : BitVec 13) (b : Byte) (s : State) : (memWrite p b s).offsXor = s.offsXor := rfl
@[simp] theorem memWrite_writeOffs (p : BitVec 13) (b : Byte) (s : State) : (memWrite p b s).writeOffs = s.writeOffs := rfl
@[simp] theorem memWrite_acc (p : BitVec 13) (b : Byte) (s : State) : (memWrite p b s).acc = s.acc := rfl
@[simp] theorem memWrite_nbits (p : BitVec 13) (b : Byte) (s : State) : (memWrite p b s).nbits = s.nbits := rfl
@[simp] theorem memWrite_remainingLen (p : BitVec 13) (b : Byte) (s : State) : (memWrite p b s).remainingLen = s.remainingLen := rfl
@[simp] theorem memWrite_currentOffs (p : BitVec 13) (b : Byte) (s : State) : (memWrite p b s).currentOffs = s.currentOffs := rfl
@[simp] theorem memWrite_dictBits (p : BitVec 13) (b : Byte) (s : State) : (memWrite p b s).dictBits = s.dictBits := rfl
@[simp] theorem memWrite_needMode (p : BitVec 13) (b : Byte) (s : State) : (memWrite p b s).needMode = s.needMode := rfl
@[simp] theorem memWrite_needDict (p : BitVec 13) (b : Byte) (s : State) : (memWrite p b s).needDict = s.needDict := rfl
@[simp] theorem memWrite_swapPending (p : BitVec 13) (b : Byte) (s : State) : (memWrite p b s).swapPending = s.swapPending := rfl
@[simp] theorem memWrite_ended (p : BitVec 13) (b : Byte) (s : State) : (memWrite p b s).ended = s.ended := rfl
@[simp] theorem memWrite_fatal (p : BitVec 13) (b : Byte) (s : State) : (memWrite p b s).fatal = s.fatal := rfl
@[simp] theorem memWrite_faultCode (p : BitVec 13) (b : Byte) (s : State) : (memWrite p b s).faultCode = s.faultCode := rfl
@[simp] theorem memWrite_totalIn (p : BitVec 13) (b : Byte) (s : State) : (memWrite p b s).totalIn = s.totalIn := rfl
@[simp] theorem memWrite_totalOut (p : BitVec 13) (b : Byte) (s : State) : (memWrite p b s).totalOut = s.totalOut := rfl
@[simp] theorem memWrite_window (p : BitVec 13) (b : Byte) (s : State) : (memWrite p b s).window = cellWrite s.window p.toNat b := rfl
@[simp] theorem memWrite_table (p : BitVec 13) (b : Byte) (s : State) : (memWrite p b s).table = s.table := rfl
@[simp] theorem memWrite_draw (p : BitVec 13) (b : Byte) (s : State) : (memWrite p b s).draw = s.draw := rfl
@[simp] theorem memWrite_port (p : BitVec 13) (b : Byte) (s : State) : (memWrite p b s).port = s.port := rfl
@[simp] theorem memWrite_response (p : BitVec 13) (b : Byte) (s : State) : (memWrite p b s).response = s.response := rfl
@[simp] theorem memWrite_answer (p : BitVec 13) (b : Byte) (s : State) : (memWrite p b s).answer = s.answer := rfl
@[simp] theorem memWrite_phase (p : BitVec 13) (b : Byte) (s : State) : (memWrite p b s).phase = s.phase := rfl
@[simp] theorem memWrite_chunk (p : BitVec 13) (b : Byte) (s : State) : (memWrite p b s).chunk = s.chunk := rfl
@[simp] theorem memWrite_pos (p : BitVec 13) (b : Byte) (s : State) : (memWrite p b s).pos = s.pos := rfl
@[simp] theorem memWrite_start (p : BitVec 13) (b : Byte) (s : State) : (memWrite p b s).start = s.start := rfl
@[simp] theorem memWrite_reason (p : BitVec 13) (b : Byte) (s : State) : (memWrite p b s).reason = s.reason := rfl
@[simp] theorem memWrite_decoded (p : BitVec 13) (b : Byte) (s : State) : (memWrite p b s).decoded = s.decoded := rfl

/-! winWrite -/

@[simp] theorem winWrite_offsXor (l : BitVec 13) (b : Byte) (s : State) : (winWrite l b s).offsXor = s.offsXor := rfl
@[simp] theorem winWrite_writeOffs (l : BitVec 13) (b : Byte) (s : State) : (winWrite l b s).writeOffs = s.writeOffs := rfl
@[simp] theorem winWrite_acc (l : BitVec 13) (b : Byte) (s : State) : (winWrite l b s).acc = s.acc := rfl
@[simp] theorem winWrite_nbits (l : BitVec 13) (b : Byte) (s : State) : (winWrite l b s).nbits = s.nbits := rfl
@[simp] theorem winWrite_remainingLen (l : BitVec 13) (b : Byte) (s : State) : (winWrite l b s).remainingLen = s.remainingLen := rfl
@[simp] theorem winWrite_currentOffs (l : BitVec 13) (b : Byte) (s : State) : (winWrite l b s).currentOffs = s.currentOffs := rfl
@[simp] theorem winWrite_dictBits (l : BitVec 13) (b : Byte) (s : State) : (winWrite l b s).dictBits = s.dictBits := rfl
@[simp] theorem winWrite_needMode (l : BitVec 13) (b : Byte) (s : State) : (winWrite l b s).needMode = s.needMode := rfl
@[simp] theorem winWrite_needDict (l : BitVec 13) (b : Byte) (s : State) : (winWrite l b s).needDict = s.needDict := rfl
@[simp] theorem winWrite_swapPending (l : BitVec 13) (b : Byte) (s : State) : (winWrite l b s).swapPending = s.swapPending := rfl
@[simp] theorem winWrite_ended (l : BitVec 13) (b : Byte) (s : State) : (winWrite l b s).ended = s.ended := rfl
@[simp] theorem winWrite_fatal (l : BitVec 13) (b : Byte) (s : State) : (winWrite l b s).fatal = s.fatal := rfl
@[simp] theorem winWrite_faultCode (l : BitVec 13) (b : Byte) (s : State) : (winWrite l b s).faultCode = s.faultCode := rfl
@[simp] theorem winWrite_totalIn (l : BitVec 13) (b : Byte) (s : State) : (winWrite l b s).totalIn = s.totalIn := rfl
@[simp] theorem winWrite_totalOut (l : BitVec 13) (b : Byte) (s : State) : (winWrite l b s).totalOut = s.totalOut := rfl
@[simp] theorem winWrite_window (l : BitVec 13) (b : Byte) (s : State) : (winWrite l b s).window = cellWrite s.window (physical s l).toNat b := rfl
@[simp] theorem winWrite_table (l : BitVec 13) (b : Byte) (s : State) : (winWrite l b s).table = s.table := rfl
@[simp] theorem winWrite_draw (l : BitVec 13) (b : Byte) (s : State) : (winWrite l b s).draw = s.draw := rfl
@[simp] theorem winWrite_port (l : BitVec 13) (b : Byte) (s : State) : (winWrite l b s).port = s.port := rfl
@[simp] theorem winWrite_response (l : BitVec 13) (b : Byte) (s : State) : (winWrite l b s).response = s.response := rfl
@[simp] theorem winWrite_answer (l : BitVec 13) (b : Byte) (s : State) : (winWrite l b s).answer = s.answer := rfl
@[simp] theorem winWrite_phase (l : BitVec 13) (b : Byte) (s : State) : (winWrite l b s).phase = s.phase := rfl
@[simp] theorem winWrite_chunk (l : BitVec 13) (b : Byte) (s : State) : (winWrite l b s).chunk = s.chunk := rfl
@[simp] theorem winWrite_pos (l : BitVec 13) (b : Byte) (s : State) : (winWrite l b s).pos = s.pos := rfl
@[simp] theorem winWrite_start (l : BitVec 13) (b : Byte) (s : State) : (winWrite l b s).start = s.start := rfl
@[simp] theorem winWrite_reason (l : BitVec 13) (b : Byte) (s : State) : (winWrite l b s).reason = s.reason := rfl
@[simp] theorem winWrite_decoded (l : BitVec 13) (b : Byte) (s : State) : (winWrite l b s).decoded = s.decoded := rfl

/-! refill -/

@[simp] theorem refill_offsXor (s : State) : (refill s).offsXor = s.offsXor := rfl
@[simp] theorem refill_writeOffs (s : State) : (refill s).writeOffs = s.writeOffs := rfl
@[simp] theorem refill_acc (s : State) : (refill s).acc = (refillFrom (s.chunk.drop s.pos) { acc := s.acc, nbits := s.nbits, pos := s.pos }).acc := rfl
@[simp] theorem refill_nbits (s : State) : (refill s).nbits = (refillFrom (s.chunk.drop s.pos) { acc := s.acc, nbits := s.nbits, pos := s.pos }).nbits := rfl
@[simp] theorem refill_remainingLen (s : State) : (refill s).remainingLen = s.remainingLen := rfl
@[simp] theorem refill_currentOffs (s : State) : (refill s).currentOffs = s.currentOffs := rfl
@[simp] theorem refill_dictBits (s : State) : (refill s).dictBits = s.dictBits := rfl
@[simp] theorem refill_needMode (s : State) : (refill s).needMode = s.needMode := rfl
@[simp] theorem refill_needDict (s : State) : (refill s).needDict = s.needDict := rfl
@[simp] theorem refill_swapPending (s : State) : (refill s).swapPending = s.swapPending := rfl
@[simp] theorem refill_ended (s : State) : (refill s).ended = s.ended := rfl
@[simp] theorem refill_fatal (s : State) : (refill s).fatal = s.fatal := rfl
@[simp] theorem refill_faultCode (s : State) : (refill s).faultCode = s.faultCode := rfl
@[simp] theorem refill_totalIn (s : State) : (refill s).totalIn = s.totalIn := rfl
@[simp] theorem refill_totalOut (s : State) : (refill s).totalOut = s.totalOut := rfl
@[simp] theorem refill_window (s : State) : (refill s).window = s.window := rfl
@[simp] theorem refill_table (s : State) : (refill s).table = s.table := rfl
@[simp] theorem refill_draw (s : State) : (refill s).draw = s.draw := rfl
@[simp] theorem refill_port (s : State) : (refill s).port = s.port := rfl
@[simp] theorem refill_response (s : State) : (refill s).response = s.response := rfl
@[simp] theorem refill_answer (s : State) : (refill s).answer = s.answer := rfl
@[simp] theorem refill_phase (s : State) : (refill s).phase = s.phase := rfl
@[simp] theorem refill_chunk (s : State) : (refill s).chunk = s.chunk := rfl
@[simp] theorem refill_pos (s : State) : (refill s).pos = (refillFrom (s.chunk.drop s.pos) { acc := s.acc, nbits := s.nbits, pos := s.pos }).pos := rfl
@[simp] theorem refill_start (s : State) : (refill s).start = s.start := rfl
@[simp] theorem refill_reason (s : State) : (refill s).reason = s.reason := rfl
@[simp] theorem refill_decoded (s : State) : (refill s).decoded = s.decoded := rfl

/-! consumeBits -/

@[simp] theorem consumeBits_offsXor (used : Nat) (s : State) : (consumeBits used s).offsXor = s.offsXor := rfl
@[simp] theorem consumeBits_writeOffs (used : Nat) (s : State) : (consumeBits used s).writeOffs = s.writeOffs := rfl
@[simp] theorem consumeBits_acc (used : Nat) (s : State) : (consumeBits used s).acc = s.acc >>> used := rfl
@[simp] theorem consumeBits_nbits (used : Nat) (s : State) : (consumeBits used s).nbits = BitVec.ofNat 7 (s.nbits.toNat - used) := rfl
@[simp] theorem consumeBits_remainingLen (used : Nat) (s : State) : (consumeBits used s).remainingLen = s.remainingLen := rfl
@[simp] theorem consumeBits_currentOffs (used : Nat) (s : State) : (consumeBits used s).currentOffs = s.currentOffs := rfl
@[simp] theorem consumeBits_dictBits (used : Nat) (s : State) : (consumeBits used s).dictBits = s.dictBits := rfl
@[simp] theorem consumeBits_needMode (used : Nat) (s : State) : (consumeBits used s).needMode = s.needMode := rfl
@[simp] theorem consumeBits_needDict (used : Nat) (s : State) : (consumeBits used s).needDict = s.needDict := rfl
@[simp] theorem consumeBits_swapPending (used : Nat) (s : State) : (consumeBits used s).swapPending = s.swapPending := rfl
@[simp] theorem consumeBits_ended (used : Nat) (s : State) : (consumeBits used s).ended = s.ended := rfl
@[simp] theorem consumeBits_fatal (used : Nat) (s : State) : (consumeBits used s).fatal = s.fatal := rfl
@[simp] theorem consumeBits_faultCode (used : Nat) (s : State) : (consumeBits used s).faultCode = s.faultCode := rfl
@[simp] theorem consumeBits_totalIn (used : Nat) (s : State) : (consumeBits used s).totalIn = s.totalIn := rfl
@[simp] theorem consumeBits_totalOut (used : Nat) (s : State) : (consumeBits used s).totalOut = s.totalOut := rfl
@[simp] theorem consumeBits_window (used : Nat) (s : State) : (consumeBits used s).window = s.window := rfl
@[simp] theorem consumeBits_table (used : Nat) (s : State) : (consumeBits used s).table = s.table := rfl
@[simp] theorem consumeBits_draw (used : Nat) (s : State) : (consumeBits used s).draw = s.draw := rfl
@[simp] theorem consumeBits_port (used : Nat) (s : State) : (consumeBits used s).port = s.port := rfl
@[simp] theorem consumeBits_response (used : Nat) (s : State) : (consumeBits used s).response = s.response := rfl
@[simp] theorem consumeBits_answer (used : Nat) (s : State) : (consumeBits used s).answer = s.answer := rfl
@[simp] theorem consumeBits_phase (used : Nat) (s : State) : (consumeBits used s).phase = s.phase := rfl
@[simp] theorem consumeBits_chunk (used : Nat) (s : State) : (consumeBits used s).chunk = s.chunk := rfl
@[simp] theorem consumeBits_pos (used : Nat) (s : State) : (consumeBits used s).pos = s.pos := rfl
@[simp] theorem consumeBits_start (used : Nat) (s : State) : (consumeBits used s).start = s.start := rfl
@[simp] theorem consumeBits_reason (used : Nat) (s : State) : (consumeBits used s).reason = s.reason := rfl
@[simp] theorem consumeBits_decoded (used : Nat) (s : State) : (consumeBits used s).decoded = s.decoded := rfl

/-! doSwap -/

@[simp] theorem doSwap_offsXor (s : State) : (doSwap s).offsXor = s.offsXor ^^^ 4096 := rfl
@[simp] theorem doSwap_writeOffs (s : State) : (doSwap s).writeOffs = 4096 := rfl
@[simp] theorem doSwap_acc (s : State) : (doSwap s).acc = s.acc := rfl
@[simp] theorem doSwap_nbits (s : State) : (doSwap s).nbits = s.nbits := rfl
@[simp] theorem doSwap_remainingLen (s : State) : (doSwap s).remainingLen = s.remainingLen := rfl
@[simp] theorem doSwap_currentOffs (s : State) : (doSwap s).currentOffs = if s.remainingLen = 0 then s.currentOffs else s.currentOffs - 4096 := rfl
@[simp] theorem doSwap_dictBits (s : State) : (doSwap s).dictBits = s.dictBits := rfl
@[simp] theorem doSwap_needMode (s : State) : (doSwap s).needMode = s.needMode := rfl
@[simp] theorem doSwap_needDict (s : State) : (doSwap s).needDict = s.needDict := rfl
@[simp] theorem doSwap_swapPending (s : State) : (doSwap s).swapPending = false := rfl
@[simp] theorem doSwap_ended (s : State) : (doSwap s).ended = s.ended := rfl
@[simp] theorem doSwap_fatal (s : State) : (doSwap s).fatal = s.fatal := rfl
@[simp] theorem doSwap_faultCode (s : State) : (doSwap s).faultCode = s.faultCode := rfl
@[simp] theorem doSwap_totalIn (s : State) : (doSwap s).totalIn = s.totalIn := rfl
@[simp] theorem doSwap_totalOut (s : State) : (doSwap s).totalOut = s.totalOut := rfl
@[simp] theorem doSwap_window (s : State) : (doSwap s).window = s.window := rfl
@[simp] theorem doSwap_table (s : State) : (doSwap s).table = s.table := rfl
@[simp] theorem doSwap_draw (s : State) : (doSwap s).draw = s.draw := rfl
@[simp] theorem doSwap_port (s : State) : (doSwap s).port = s.port := rfl
@[simp] theorem doSwap_response (s : State) : (doSwap s).response = s.response := rfl
@[simp] theorem doSwap_answer (s : State) : (doSwap s).answer = s.answer := rfl
@[simp] theorem doSwap_phase (s : State) : (doSwap s).phase = s.phase := rfl
@[simp] theorem doSwap_chunk (s : State) : (doSwap s).chunk = s.chunk := rfl
@[simp] theorem doSwap_pos (s : State) : (doSwap s).pos = s.pos := rfl
@[simp] theorem doSwap_start (s : State) : (doSwap s).start = s.start := rfl
@[simp] theorem doSwap_reason (s : State) : (doSwap s).reason = s.reason := rfl
@[simp] theorem doSwap_decoded (s : State) : (doSwap s).decoded = s.decoded := rfl

/-! moveBytes -/

@[simp] theorem moveBytes_offsXor (n : Nat) (s : State) : (moveBytes n s).offsXor = s.offsXor := rfl
@[simp] theorem moveBytes_writeOffs (n : Nat) (s : State) : (moveBytes n s).writeOffs = s.writeOffs + BitVec.ofNat 14 n := rfl
@[simp] theorem moveBytes_acc (n : Nat) (s : State) : (moveBytes n s).acc = s.acc := rfl
@[simp] theorem moveBytes_nbits (n : Nat) (s : State) : (moveBytes n s).nbits = s.nbits := rfl
@[simp] theorem moveBytes_remainingLen (n : Nat) (s : State) : (moveBytes n s).remainingLen = s.remainingLen - BitVec.ofNat 16 n := rfl
@[simp] theorem moveBytes_currentOffs (n : Nat) (s : State) : (moveBytes n s).currentOffs = s.currentOffs + BitVec.ofNat 13 n := rfl
@[simp] theorem moveBytes_dictBits (n : Nat) (s : State) : (moveBytes n s).dictBits = s.dictBits := rfl
@[simp] theorem moveBytes_needMode (n : Nat) (s : State) : (moveBytes n s).needMode = s.needMode := rfl
@[simp] theorem moveBytes_needDict (n : Nat) (s : State) : (moveBytes n s).needDict = s.needDict := rfl
@[simp] theorem moveBytes_swapPending (n : Nat) (s : State) : (moveBytes n s).swapPending = s.swapPending := rfl
@[simp] theorem moveBytes_ended (n : Nat) (s : State) : (moveBytes n s).ended = s.ended := rfl
@[simp] theorem moveBytes_fatal (n : Nat) (s : State) : (moveBytes n s).fatal = s.fatal := rfl
@[simp] theorem moveBytes_faultCode (n : Nat) (s : State) : (moveBytes n s).faultCode = s.faultCode := rfl
@[simp] theorem moveBytes_totalIn (n : Nat) (s : State) : (moveBytes n s).totalIn = s.totalIn := rfl
@[simp] theorem moveBytes_totalOut (n : Nat) (s : State) : (moveBytes n s).totalOut = s.totalOut + n := rfl
@[simp] theorem moveBytes_window (n : Nat) (s : State) : (moveBytes n s).window = copyBytes s.draw s.offsXor.toNat n s.totalOut s.currentOffs.toNat s.writeOffs.toNat s.window := rfl
@[simp] theorem moveBytes_table (n : Nat) (s : State) : (moveBytes n s).table = s.table := rfl
@[simp] theorem moveBytes_draw (n : Nat) (s : State) : (moveBytes n s).draw = s.draw := rfl
@[simp] theorem moveBytes_port (n : Nat) (s : State) : (moveBytes n s).port = s.port := rfl
@[simp] theorem moveBytes_response (n : Nat) (s : State) : (moveBytes n s).response = s.response := rfl
@[simp] theorem moveBytes_answer (n : Nat) (s : State) : (moveBytes n s).answer = s.answer := rfl
@[simp] theorem moveBytes_phase (n : Nat) (s : State) : (moveBytes n s).phase = s.phase := rfl
@[simp] theorem moveBytes_chunk (n : Nat) (s : State) : (moveBytes n s).chunk = s.chunk := rfl
@[simp] theorem moveBytes_pos (n : Nat) (s : State) : (moveBytes n s).pos = s.pos := rfl
@[simp] theorem moveBytes_start (n : Nat) (s : State) : (moveBytes n s).start = s.start := rfl
@[simp] theorem moveBytes_reason (n : Nat) (s : State) : (moveBytes n s).reason = s.reason := rfl
@[simp] theorem moveBytes_decoded (n : Nat) (s : State) : (moveBytes n s).decoded = s.decoded := rfl

/-! raiseFatal -/

@[simp] theorem raiseFatal_offsXor (code : FaultCode) (s : State) : (raiseFatal code s).offsXor = s.offsXor := rfl
@[simp] theorem raiseFatal_writeOffs (code : FaultCode) (s : State) : (raiseFatal code s).writeOffs = s.writeOffs := rfl
@[simp] theorem raiseFatal_acc (code : FaultCode) (s : State) : (raiseFatal code s).acc = s.acc := rfl
@[simp] theorem raiseFatal_nbits (code : FaultCode) (s : State) : (raiseFatal code s).nbits = s.nbits := rfl
@[simp] theorem raiseFatal_remainingLen (code : FaultCode) (s : State) : (raiseFatal code s).remainingLen = s.remainingLen := rfl
@[simp] theorem raiseFatal_currentOffs (code : FaultCode) (s : State) : (raiseFatal code s).currentOffs = s.currentOffs := rfl
@[simp] theorem raiseFatal_dictBits (code : FaultCode) (s : State) : (raiseFatal code s).dictBits = s.dictBits := rfl
@[simp] theorem raiseFatal_needMode (code : FaultCode) (s : State) : (raiseFatal code s).needMode = s.needMode := rfl
@[simp] theorem raiseFatal_needDict (code : FaultCode) (s : State) : (raiseFatal code s).needDict = s.needDict := rfl
@[simp] theorem raiseFatal_swapPending (code : FaultCode) (s : State) : (raiseFatal code s).swapPending = s.swapPending := rfl
@[simp] theorem raiseFatal_ended (code : FaultCode) (s : State) : (raiseFatal code s).ended = s.ended := rfl
@[simp] theorem raiseFatal_fatal (code : FaultCode) (s : State) : (raiseFatal code s).fatal = true := rfl
@[simp] theorem raiseFatal_faultCode (code : FaultCode) (s : State) : (raiseFatal code s).faultCode = code := rfl
@[simp] theorem raiseFatal_totalIn (code : FaultCode) (s : State) : (raiseFatal code s).totalIn = s.totalIn := rfl
@[simp] theorem raiseFatal_totalOut (code : FaultCode) (s : State) : (raiseFatal code s).totalOut = s.totalOut := rfl
@[simp] theorem raiseFatal_window (code : FaultCode) (s : State) : (raiseFatal code s).window = s.window := rfl
@[simp] theorem raiseFatal_table (code : FaultCode) (s : State) : (raiseFatal code s).table = s.table := rfl
@[simp] theorem raiseFatal_draw (code : FaultCode) (s : State) : (raiseFatal code s).draw = s.draw := rfl
@[simp] theorem raiseFatal_port (code : FaultCode) (s : State) : (raiseFatal code s).port = s.port := rfl
@[simp] theorem raiseFatal_response (code : FaultCode) (s : State) : (raiseFatal code s).response = s.response := rfl
@[simp] theorem raiseFatal_answer (code : FaultCode) (s : State) : (raiseFatal code s).answer = s.answer := rfl
@[simp] theorem raiseFatal_phase (code : FaultCode) (s : State) : (raiseFatal code s).phase = s.phase := rfl
@[simp] theorem raiseFatal_chunk (code : FaultCode) (s : State) : (raiseFatal code s).chunk = s.chunk := rfl
@[simp] theorem raiseFatal_pos (code : FaultCode) (s : State) : (raiseFatal code s).pos = s.pos := rfl
@[simp] theorem raiseFatal_start (code : FaultCode) (s : State) : (raiseFatal code s).start = s.start := rfl
@[simp] theorem raiseFatal_reason (code : FaultCode) (s : State) : (raiseFatal code s).reason = .fault := rfl
@[simp] theorem raiseFatal_decoded (code : FaultCode) (s : State) : (raiseFatal code s).decoded = s.decoded := rfl

/-! resetRegisters -/

@[simp] theorem resetRegisters_offsXor (s : State) : (resetRegisters s).offsXor = 0 := rfl
@[simp] theorem resetRegisters_writeOffs (s : State) : (resetRegisters s).writeOffs = 4096 := rfl
@[simp] theorem resetRegisters_acc (s : State) : (resetRegisters s).acc = 0 := rfl
@[simp] theorem resetRegisters_nbits (s : State) : (resetRegisters s).nbits = 0 := rfl
@[simp] theorem resetRegisters_remainingLen (s : State) : (resetRegisters s).remainingLen = 0 := rfl
@[simp] theorem resetRegisters_currentOffs (s : State) : (resetRegisters s).currentOffs = 0 := rfl
@[simp] theorem resetRegisters_dictBits (s : State) : (resetRegisters s).dictBits = 0 := rfl
@[simp] theorem resetRegisters_needMode (s : State) : (resetRegisters s).needMode = true := rfl
@[simp] theorem resetRegisters_needDict (s : State) : (resetRegisters s).needDict = true := rfl
@[simp] theorem resetRegisters_swapPending (s : State) : (resetRegisters s).swapPending = false := rfl
@[simp] theorem resetRegisters_ended (s : State) : (resetRegisters s).ended = false := rfl
@[simp] theorem resetRegisters_fatal (s : State) : (resetRegisters s).fatal = false := rfl
@[simp] theorem resetRegisters_faultCode (s : State) : (resetRegisters s).faultCode = .none := rfl
@[simp] theorem resetRegisters_totalIn (s : State) : (resetRegisters s).totalIn = 0 := rfl
@[simp] theorem resetRegisters_totalOut (s : State) : (resetRegisters s).totalOut = 0 := rfl
@[simp] theorem resetRegisters_window (s : State) : (resetRegisters s).window = s.window := rfl
@[simp] theorem resetRegisters_table (s : State) : (resetRegisters s).table = s.table := rfl
@[simp] theorem resetRegisters_draw (s : State) : (resetRegisters s).draw = s.draw := rfl
@[simp] theorem resetRegisters_port (s : State) : (resetRegisters s).port = s.port := rfl
@[simp] theorem resetRegisters_response (s : State) : (resetRegisters s).response = s.response := rfl
@[simp] theorem resetRegisters_answer (s : State) : (resetRegisters s).answer = s.answer := rfl
@[simp] theorem resetRegisters_phase (s : State) : (resetRegisters s).phase = s.phase := rfl
@[simp] theorem resetRegisters_chunk (s : State) : (resetRegisters s).chunk = s.chunk := rfl
@[simp] theorem resetRegisters_pos (s : State) : (resetRegisters s).pos = s.pos := rfl
@[simp] theorem resetRegisters_start (s : State) : (resetRegisters s).start = s.start := rfl
@[simp] theorem resetRegisters_reason (s : State) : (resetRegisters s).reason = s.reason := rfl
@[simp] theorem resetRegisters_decoded (s : State) : (resetRegisters s).decoded = s.decoded := rfl

/-! dropOutputs -/

@[simp] theorem dropOutputs_offsXor (s : State) : (dropOutputs s).offsXor = s.offsXor := rfl
@[simp] theorem dropOutputs_writeOffs (s : State) : (dropOutputs s).writeOffs = s.writeOffs := rfl
@[simp] theorem dropOutputs_acc (s : State) : (dropOutputs s).acc = s.acc := rfl
@[simp] theorem dropOutputs_nbits (s : State) : (dropOutputs s).nbits = s.nbits := rfl
@[simp] theorem dropOutputs_remainingLen (s : State) : (dropOutputs s).remainingLen = s.remainingLen := rfl
@[simp] theorem dropOutputs_currentOffs (s : State) : (dropOutputs s).currentOffs = s.currentOffs := rfl
@[simp] theorem dropOutputs_dictBits (s : State) : (dropOutputs s).dictBits = s.dictBits := rfl
@[simp] theorem dropOutputs_needMode (s : State) : (dropOutputs s).needMode = s.needMode := rfl
@[simp] theorem dropOutputs_needDict (s : State) : (dropOutputs s).needDict = s.needDict := rfl
@[simp] theorem dropOutputs_swapPending (s : State) : (dropOutputs s).swapPending = s.swapPending := rfl
@[simp] theorem dropOutputs_ended (s : State) : (dropOutputs s).ended = s.ended := rfl
@[simp] theorem dropOutputs_fatal (s : State) : (dropOutputs s).fatal = s.fatal := rfl
@[simp] theorem dropOutputs_faultCode (s : State) : (dropOutputs s).faultCode = s.faultCode := rfl
@[simp] theorem dropOutputs_totalIn (s : State) : (dropOutputs s).totalIn = s.totalIn := rfl
@[simp] theorem dropOutputs_totalOut (s : State) : (dropOutputs s).totalOut = s.totalOut := rfl
@[simp] theorem dropOutputs_window (s : State) : (dropOutputs s).window = s.window := rfl
@[simp] theorem dropOutputs_table (s : State) : (dropOutputs s).table = s.table := rfl
@[simp] theorem dropOutputs_draw (s : State) : (dropOutputs s).draw = s.draw := rfl
@[simp] theorem dropOutputs_port (s : State) : (dropOutputs s).port = s.port := rfl
@[simp] theorem dropOutputs_response (s : State) : (dropOutputs s).response = none := rfl
@[simp] theorem dropOutputs_answer (s : State) : (dropOutputs s).answer = none := rfl
@[simp] theorem dropOutputs_phase (s : State) : (dropOutputs s).phase = s.phase := rfl
@[simp] theorem dropOutputs_chunk (s : State) : (dropOutputs s).chunk = s.chunk := rfl
@[simp] theorem dropOutputs_pos (s : State) : (dropOutputs s).pos = s.pos := rfl
@[simp] theorem dropOutputs_start (s : State) : (dropOutputs s).start = s.start := rfl
@[simp] theorem dropOutputs_reason (s : State) : (dropOutputs s).reason = s.reason := rfl
@[simp] theorem dropOutputs_decoded (s : State) : (dropOutputs s).decoded = s.decoded := rfl

/-! closeCommand -/

@[simp] theorem closeCommand_offsXor (r : Response) (s : State) : (closeCommand r s).offsXor = s.offsXor := rfl
@[simp] theorem closeCommand_writeOffs (r : Response) (s : State) : (closeCommand r s).writeOffs = s.writeOffs := rfl
@[simp] theorem closeCommand_acc (r : Response) (s : State) : (closeCommand r s).acc = s.acc := rfl
@[simp] theorem closeCommand_nbits (r : Response) (s : State) : (closeCommand r s).nbits = s.nbits := rfl
@[simp] theorem closeCommand_remainingLen (r : Response) (s : State) : (closeCommand r s).remainingLen = s.remainingLen := rfl
@[simp] theorem closeCommand_currentOffs (r : Response) (s : State) : (closeCommand r s).currentOffs = s.currentOffs := rfl
@[simp] theorem closeCommand_dictBits (r : Response) (s : State) : (closeCommand r s).dictBits = s.dictBits := rfl
@[simp] theorem closeCommand_needMode (r : Response) (s : State) : (closeCommand r s).needMode = s.needMode := rfl
@[simp] theorem closeCommand_needDict (r : Response) (s : State) : (closeCommand r s).needDict = s.needDict := rfl
@[simp] theorem closeCommand_swapPending (r : Response) (s : State) : (closeCommand r s).swapPending = s.swapPending := rfl
@[simp] theorem closeCommand_ended (r : Response) (s : State) : (closeCommand r s).ended = s.ended := rfl
@[simp] theorem closeCommand_fatal (r : Response) (s : State) : (closeCommand r s).fatal = s.fatal := rfl
@[simp] theorem closeCommand_faultCode (r : Response) (s : State) : (closeCommand r s).faultCode = s.faultCode := rfl
@[simp] theorem closeCommand_totalIn (r : Response) (s : State) : (closeCommand r s).totalIn = s.totalIn + r.consumed := rfl
@[simp] theorem closeCommand_totalOut (r : Response) (s : State) : (closeCommand r s).totalOut = s.totalOut := rfl
@[simp] theorem closeCommand_window (r : Response) (s : State) : (closeCommand r s).window = s.window := rfl
@[simp] theorem closeCommand_table (r : Response) (s : State) : (closeCommand r s).table = s.table := rfl
@[simp] theorem closeCommand_draw (r : Response) (s : State) : (closeCommand r s).draw = s.draw := rfl
@[simp] theorem closeCommand_port (r : Response) (s : State) : (closeCommand r s).port = s.port := rfl
@[simp] theorem closeCommand_response (r : Response) (s : State) : (closeCommand r s).response = some r := rfl
@[simp] theorem closeCommand_answer (r : Response) (s : State) : (closeCommand r s).answer = s.answer := rfl
@[simp] theorem closeCommand_phase (r : Response) (s : State) : (closeCommand r s).phase = .idle := rfl
@[simp] theorem closeCommand_chunk (r : Response) (s : State) : (closeCommand r s).chunk = [] := rfl
@[simp] theorem closeCommand_pos (r : Response) (s : State) : (closeCommand r s).pos = 0 := rfl
@[simp] theorem closeCommand_start (r : Response) (s : State) : (closeCommand r s).start = 0 := rfl
@[simp] theorem closeCommand_reason (r : Response) (s : State) : (closeCommand r s).reason = .none := rfl
@[simp] theorem closeCommand_decoded (r : Response) (s : State) : (closeCommand r s).decoded = none := rfl

/-! startCopy -/

@[simp] theorem startCopy_offsXor (distance length : Nat) (s : State) : (startCopy distance length s).offsXor = s.offsXor := rfl
@[simp] theorem startCopy_writeOffs (distance length : Nat) (s : State) : (startCopy distance length s).writeOffs = s.writeOffs := rfl
@[simp] theorem startCopy_acc (distance length : Nat) (s : State) : (startCopy distance length s).acc = s.acc := rfl
@[simp] theorem startCopy_nbits (distance length : Nat) (s : State) : (startCopy distance length s).nbits = s.nbits := rfl
@[simp] theorem startCopy_remainingLen (distance length : Nat) (s : State) : (startCopy distance length s).remainingLen = BitVec.ofNat 16 length := rfl
@[simp] theorem startCopy_currentOffs (distance length : Nat) (s : State) : (startCopy distance length s).currentOffs = BitVec.ofNat 13 (s.writeOffs.toNat - distance) := rfl
@[simp] theorem startCopy_dictBits (distance length : Nat) (s : State) : (startCopy distance length s).dictBits = s.dictBits := rfl
@[simp] theorem startCopy_needMode (distance length : Nat) (s : State) : (startCopy distance length s).needMode = s.needMode := rfl
@[simp] theorem startCopy_needDict (distance length : Nat) (s : State) : (startCopy distance length s).needDict = s.needDict := rfl
@[simp] theorem startCopy_swapPending (distance length : Nat) (s : State) : (startCopy distance length s).swapPending = s.swapPending := rfl
@[simp] theorem startCopy_ended (distance length : Nat) (s : State) : (startCopy distance length s).ended = s.ended := rfl
@[simp] theorem startCopy_fatal (distance length : Nat) (s : State) : (startCopy distance length s).fatal = s.fatal := rfl
@[simp] theorem startCopy_faultCode (distance length : Nat) (s : State) : (startCopy distance length s).faultCode = s.faultCode := rfl
@[simp] theorem startCopy_totalIn (distance length : Nat) (s : State) : (startCopy distance length s).totalIn = s.totalIn := rfl
@[simp] theorem startCopy_totalOut (distance length : Nat) (s : State) : (startCopy distance length s).totalOut = s.totalOut := rfl
@[simp] theorem startCopy_window (distance length : Nat) (s : State) : (startCopy distance length s).window = s.window := rfl
@[simp] theorem startCopy_table (distance length : Nat) (s : State) : (startCopy distance length s).table = s.table := rfl
@[simp] theorem startCopy_draw (distance length : Nat) (s : State) : (startCopy distance length s).draw = s.draw := rfl
@[simp] theorem startCopy_port (distance length : Nat) (s : State) : (startCopy distance length s).port = s.port := rfl
@[simp] theorem startCopy_response (distance length : Nat) (s : State) : (startCopy distance length s).response = s.response := rfl
@[simp] theorem startCopy_answer (distance length : Nat) (s : State) : (startCopy distance length s).answer = s.answer := rfl
@[simp] theorem startCopy_phase (distance length : Nat) (s : State) : (startCopy distance length s).phase = s.phase := rfl
@[simp] theorem startCopy_chunk (distance length : Nat) (s : State) : (startCopy distance length s).chunk = s.chunk := rfl
@[simp] theorem startCopy_pos (distance length : Nat) (s : State) : (startCopy distance length s).pos = s.pos := rfl
@[simp] theorem startCopy_start (distance length : Nat) (s : State) : (startCopy distance length s).start = s.start := rfl
@[simp] theorem startCopy_reason (distance length : Nat) (s : State) : (startCopy distance length s).reason = s.reason := rfl
@[simp] theorem startCopy_decoded (distance length : Nat) (s : State) : (startCopy distance length s).decoded = s.decoded := rfl

/-! literalEffect -/

@[simp] theorem literalEffect_offsXor (b : Byte) (s : State) : (literalEffect b s).offsXor = s.offsXor := rfl
@[simp] theorem literalEffect_writeOffs (b : Byte) (s : State) : (literalEffect b s).writeOffs = s.writeOffs + 1 := rfl
@[simp] theorem literalEffect_acc (b : Byte) (s : State) : (literalEffect b s).acc = s.acc >>> literalUsed := rfl
@[simp] theorem literalEffect_nbits (b : Byte) (s : State) : (literalEffect b s).nbits = BitVec.ofNat 7 (s.nbits.toNat - literalUsed) := rfl
@[simp] theorem literalEffect_remainingLen (b : Byte) (s : State) : (literalEffect b s).remainingLen = s.remainingLen := rfl
@[simp] theorem literalEffect_currentOffs (b : Byte) (s : State) : (literalEffect b s).currentOffs = s.currentOffs := rfl
@[simp] theorem literalEffect_dictBits (b : Byte) (s : State) : (literalEffect b s).dictBits = s.dictBits := rfl
@[simp] theorem literalEffect_needMode (b : Byte) (s : State) : (literalEffect b s).needMode = s.needMode := rfl
@[simp] theorem literalEffect_needDict (b : Byte) (s : State) : (literalEffect b s).needDict = s.needDict := rfl
@[simp] theorem literalEffect_swapPending (b : Byte) (s : State) : (literalEffect b s).swapPending = s.swapPending := rfl
@[simp] theorem literalEffect_ended (b : Byte) (s : State) : (literalEffect b s).ended = s.ended := rfl
@[simp] theorem literalEffect_fatal (b : Byte) (s : State) : (literalEffect b s).fatal = s.fatal := rfl
@[simp] theorem literalEffect_faultCode (b : Byte) (s : State) : (literalEffect b s).faultCode = s.faultCode := rfl
@[simp] theorem literalEffect_totalIn (b : Byte) (s : State) : (literalEffect b s).totalIn = s.totalIn := rfl
@[simp] theorem literalEffect_totalOut (b : Byte) (s : State) : (literalEffect b s).totalOut = s.totalOut + 1 := rfl
@[simp] theorem literalEffect_window (b : Byte) (s : State) : (literalEffect b s).window = cellWrite s.window (physical s (s.writeOffs.setWidth 13)).toNat b := rfl
@[simp] theorem literalEffect_table (b : Byte) (s : State) : (literalEffect b s).table = s.table := rfl
@[simp] theorem literalEffect_draw (b : Byte) (s : State) : (literalEffect b s).draw = s.draw := rfl
@[simp] theorem literalEffect_port (b : Byte) (s : State) : (literalEffect b s).port = s.port := rfl
@[simp] theorem literalEffect_response (b : Byte) (s : State) : (literalEffect b s).response = s.response := rfl
@[simp] theorem literalEffect_answer (b : Byte) (s : State) : (literalEffect b s).answer = s.answer := rfl
@[simp] theorem literalEffect_phase (b : Byte) (s : State) : (literalEffect b s).phase = s.phase := rfl
@[simp] theorem literalEffect_chunk (b : Byte) (s : State) : (literalEffect b s).chunk = s.chunk := rfl
@[simp] theorem literalEffect_pos (b : Byte) (s : State) : (literalEffect b s).pos = s.pos := rfl
@[simp] theorem literalEffect_start (b : Byte) (s : State) : (literalEffect b s).start = s.start := rfl
@[simp] theorem literalEffect_reason (b : Byte) (s : State) : (literalEffect b s).reason = s.reason := rfl
@[simp] theorem literalEffect_decoded (b : Byte) (s : State) : (literalEffect b s).decoded = s.decoded := rfl

/-! openCommand -/

@[simp] theorem openCommand_offsXor (chunk : List Byte) (s : State) : (openCommand chunk s).offsXor = s.offsXor := rfl
@[simp] theorem openCommand_writeOffs (chunk : List Byte) (s : State) : (openCommand chunk s).writeOffs = s.writeOffs := rfl
@[simp] theorem openCommand_acc (chunk : List Byte) (s : State) : (openCommand chunk s).acc = s.acc := rfl
@[simp] theorem openCommand_nbits (chunk : List Byte) (s : State) : (openCommand chunk s).nbits = s.nbits := rfl
@[simp] theorem openCommand_remainingLen (chunk : List Byte) (s : State) : (openCommand chunk s).remainingLen = s.remainingLen := rfl
@[simp] theorem openCommand_currentOffs (chunk : List Byte) (s : State) : (openCommand chunk s).currentOffs = s.currentOffs := rfl
@[simp] theorem openCommand_dictBits (chunk : List Byte) (s : State) : (openCommand chunk s).dictBits = s.dictBits := rfl
@[simp] theorem openCommand_needMode (chunk : List Byte) (s : State) : (openCommand chunk s).needMode = s.needMode := rfl
@[simp] theorem openCommand_needDict (chunk : List Byte) (s : State) : (openCommand chunk s).needDict = s.needDict := rfl
@[simp] theorem openCommand_swapPending (chunk : List Byte) (s : State) : (openCommand chunk s).swapPending = s.swapPending := rfl
@[simp] theorem openCommand_ended (chunk : List Byte) (s : State) : (openCommand chunk s).ended = s.ended := rfl
@[simp] theorem openCommand_fatal (chunk : List Byte) (s : State) : (openCommand chunk s).fatal = s.fatal := rfl
@[simp] theorem openCommand_faultCode (chunk : List Byte) (s : State) : (openCommand chunk s).faultCode = s.faultCode := rfl
@[simp] theorem openCommand_totalIn (chunk : List Byte) (s : State) : (openCommand chunk s).totalIn = s.totalIn := rfl
@[simp] theorem openCommand_totalOut (chunk : List Byte) (s : State) : (openCommand chunk s).totalOut = s.totalOut := rfl
@[simp] theorem openCommand_window (chunk : List Byte) (s : State) : (openCommand chunk s).window = s.window := rfl
@[simp] theorem openCommand_table (chunk : List Byte) (s : State) : (openCommand chunk s).table = s.table := rfl
@[simp] theorem openCommand_draw (chunk : List Byte) (s : State) : (openCommand chunk s).draw = s.draw := rfl
@[simp] theorem openCommand_port (chunk : List Byte) (s : State) : (openCommand chunk s).port = s.port := rfl
@[simp] theorem openCommand_response (chunk : List Byte) (s : State) : (openCommand chunk s).response = none := rfl
@[simp] theorem openCommand_answer (chunk : List Byte) (s : State) : (openCommand chunk s).answer = none := rfl
@[simp] theorem openCommand_phase (chunk : List Byte) (s : State) : (openCommand chunk s).phase = s.phase := rfl
@[simp] theorem openCommand_chunk (chunk : List Byte) (s : State) : (openCommand chunk s).chunk = chunk := rfl
@[simp] theorem openCommand_pos (chunk : List Byte) (s : State) : (openCommand chunk s).pos = 0 := rfl
@[simp] theorem openCommand_start (chunk : List Byte) (s : State) : (openCommand chunk s).start = 0 := rfl
@[simp] theorem openCommand_reason (chunk : List Byte) (s : State) : (openCommand chunk s).reason = .none := rfl
@[simp] theorem openCommand_decoded (chunk : List Byte) (s : State) : (openCommand chunk s).decoded = none := rfl

/-! copyRun and the two updates that are not records of constants -/

@[simp] theorem copyRun_offsXor (s : State) : (copyRun s).offsXor = (moveBytes (copyCount s) s).offsXor := by
  simp only [copyRun]; split <;> rfl
@[simp] theorem copyRun_writeOffs (s : State) : (copyRun s).writeOffs = (moveBytes (copyCount s) s).writeOffs := by
  simp only [copyRun]; split <;> rfl
@[simp] theorem copyRun_acc (s : State) : (copyRun s).acc = (moveBytes (copyCount s) s).acc := by
  simp only [copyRun]; split <;> rfl
@[simp] theorem copyRun_nbits (s : State) : (copyRun s).nbits = (moveBytes (copyCount s) s).nbits := by
  simp only [copyRun]; split <;> rfl
@[simp] theorem copyRun_remainingLen (s : State) : (copyRun s).remainingLen = (moveBytes (copyCount s) s).remainingLen := by
  simp only [copyRun]; split <;> rfl
@[simp] theorem copyRun_currentOffs (s : State) : (copyRun s).currentOffs = (moveBytes (copyCount s) s).currentOffs := by
  simp only [copyRun]; split <;> rfl
@[simp] theorem copyRun_dictBits (s : State) : (copyRun s).dictBits = (moveBytes (copyCount s) s).dictBits := by
  simp only [copyRun]; split <;> rfl
@[simp] theorem copyRun_needMode (s : State) : (copyRun s).needMode = (moveBytes (copyCount s) s).needMode := by
  simp only [copyRun]; split <;> rfl
@[simp] theorem copyRun_needDict (s : State) : (copyRun s).needDict = (moveBytes (copyCount s) s).needDict := by
  simp only [copyRun]; split <;> rfl
@[simp] theorem copyRun_swapPending (s : State) : (copyRun s).swapPending =
    if (moveBytes (copyCount s) s).remainingLen = 0 then s.swapPending else true := by
  simp only [copyRun]; split <;> rfl
@[simp] theorem copyRun_ended (s : State) : (copyRun s).ended = (moveBytes (copyCount s) s).ended := by
  simp only [copyRun]; split <;> rfl
@[simp] theorem copyRun_fatal (s : State) : (copyRun s).fatal = (moveBytes (copyCount s) s).fatal := by
  simp only [copyRun]; split <;> rfl
@[simp] theorem copyRun_faultCode (s : State) : (copyRun s).faultCode = (moveBytes (copyCount s) s).faultCode := by
  simp only [copyRun]; split <;> rfl
@[simp] theorem copyRun_totalIn (s : State) : (copyRun s).totalIn = (moveBytes (copyCount s) s).totalIn := by
  simp only [copyRun]; split <;> rfl
@[simp] theorem copyRun_totalOut (s : State) : (copyRun s).totalOut = (moveBytes (copyCount s) s).totalOut := by
  simp only [copyRun]; split <;> rfl
@[simp] theorem copyRun_window (s : State) : (copyRun s).window = (moveBytes (copyCount s) s).window := by
  simp only [copyRun]; split <;> rfl
@[simp] theorem copyRun_table (s : State) : (copyRun s).table = (moveBytes (copyCount s) s).table := by
  simp only [copyRun]; split <;> rfl
@[simp] theorem copyRun_draw (s : State) : (copyRun s).draw = (moveBytes (copyCount s) s).draw := by
  simp only [copyRun]; split <;> rfl
@[simp] theorem copyRun_port (s : State) : (copyRun s).port = (moveBytes (copyCount s) s).port := by
  simp only [copyRun]; split <;> rfl
@[simp] theorem copyRun_response (s : State) : (copyRun s).response = (moveBytes (copyCount s) s).response := by
  simp only [copyRun]; split <;> rfl
@[simp] theorem copyRun_answer (s : State) : (copyRun s).answer = (moveBytes (copyCount s) s).answer := by
  simp only [copyRun]; split <;> rfl
@[simp] theorem copyRun_phase (s : State) : (copyRun s).phase = (moveBytes (copyCount s) s).phase := by
  simp only [copyRun]; split <;> rfl
@[simp] theorem copyRun_chunk (s : State) : (copyRun s).chunk = (moveBytes (copyCount s) s).chunk := by
  simp only [copyRun]; split <;> rfl
@[simp] theorem copyRun_pos (s : State) : (copyRun s).pos = (moveBytes (copyCount s) s).pos := by
  simp only [copyRun]; split <;> rfl
@[simp] theorem copyRun_start (s : State) : (copyRun s).start = (moveBytes (copyCount s) s).start := by
  simp only [copyRun]; split <;> rfl
@[simp] theorem copyRun_reason (s : State) : (copyRun s).reason =
    if (moveBytes (copyCount s) s).remainingLen = 0 then s.reason else .halfFull := by
  simp only [copyRun]; split <;> rfl
@[simp] theorem copyRun_decoded (s : State) : (copyRun s).decoded = (moveBytes (copyCount s) s).decoded := by
  simp only [copyRun]; split <;> rfl

end Sys2Proof.Machine
end

