-- ==== Sys2Proof/Laws/Bits.lean ====
section
/-!
SUPPORT. The accumulator: what a refill can do (R153), and that refill and consumption keep `acc < 2 ^ nbits` (R24).
-/

namespace Sys2Proof.Machine

/-- One byte taken keeps the accumulator below `2 ^ nbits` (R153). -/
theorem take_byte_bound {acc : BitVec 64} {n : Nat} (b : Byte) (h : acc.toNat < 2 ^ n) :
    (acc ||| (b.setWidth 64 <<< n)).toNat < 2 ^ (n + 8) := by
  rw [BitVec.toNat_or]
  have hb : (b.setWidth 64 <<< n).toNat ≤ b.toNat <<< n := by
    rw [BitVec.toNat_shiftLeft, BitVec.toNat_setWidth, Nat.mod_eq_of_lt (by omega : b.toNat < 2 ^ 64)]
    exact Nat.mod_le _ _
  apply Nat.or_lt_two_pow
  · exact lt_of_lt_of_le h (Nat.pow_le_pow_right (by omega) (by omega))
  · refine lt_of_le_of_lt hb ?_
    rw [Nat.shiftLeft_eq, Nat.pow_add, Nat.mul_comm]
    exact Nat.mul_lt_mul_of_pos_left b.isLt (Nat.two_pow_pos n)

/-- What a refill can do: bytes are taken in order, the bounds of R24 and R25 hold, and it ends with the chunk exhausted
or with 57 or more bits (R153). -/
theorem refillFrom_spec : ∀ (bytes : List Byte) (r : RefillResult),
    r.nbits.toNat ≤ 64 → r.acc.toNat < 2 ^ r.nbits.toNat →
    (refillFrom bytes r).nbits.toNat ≤ 64 ∧
      (refillFrom bytes r).acc.toNat < 2 ^ (refillFrom bytes r).nbits.toNat ∧
      r.pos ≤ (refillFrom bytes r).pos ∧ (refillFrom bytes r).pos ≤ r.pos + bytes.length ∧
      (refillFrom bytes r).nbits.toNat = r.nbits.toNat + 8 * ((refillFrom bytes r).pos - r.pos) ∧
      ((refillFrom bytes r).pos = r.pos + bytes.length ∨ 57 ≤ (refillFrom bytes r).nbits.toNat)
  | [], r, h1, h2 => by simp [refillFrom, h1, h2]
  | b :: rest, r, h1, h2 => by
    simp only [refillFrom]
    split
    · rename_i h
      have hn : (r.nbits + 8).toNat = r.nbits.toNat + 8 := by
        rw [BitVec.toNat_add]
        exact Nat.mod_eq_of_lt (by simp; omega)
      have ih := refillFrom_spec rest
        { acc := r.acc ||| (b.setWidth 64 <<< r.nbits.toNat), nbits := r.nbits + 8, pos := r.pos + 1 }
        (by simp only [hn]; omega) (by simp only [hn]; exact take_byte_bound b h2)
      simp only [hn, List.length_cons] at ih ⊢
      omega
    · simp only [List.length_cons]
      omega

theorem refill_spec {s : State} (h1 : s.nbits.toNat ≤ 64) (h2 : s.acc.toNat < 2 ^ s.nbits.toNat)
    (h3 : s.pos ≤ s.chunk.length) :
    (refill s).nbits.toNat ≤ 64 ∧ (refill s).acc.toNat < 2 ^ (refill s).nbits.toNat ∧
      s.pos ≤ (refill s).pos ∧ (refill s).pos ≤ s.chunk.length ∧
      (refill s).nbits.toNat = s.nbits.toNat + 8 * ((refill s).pos - s.pos) ∧
      ((refill s).pos = s.chunk.length ∨ 57 ≤ (refill s).nbits.toNat) := by
  have := refillFrom_spec (s.chunk.drop s.pos) { acc := s.acc, nbits := s.nbits, pos := s.pos } h1 h2
  simp only [List.length_drop, refill_nbits, refill_acc, refill_pos] at this ⊢
  omega

/-- Consumption keeps the bounds (R158). -/
theorem consumeBits_spec {s : State} {used : Nat} (h1 : s.nbits.toNat ≤ 64) (h2 : s.acc.toNat < 2 ^ s.nbits.toNat)
    (h3 : used ≤ s.nbits.toNat) :
    (consumeBits used s).nbits.toNat = s.nbits.toNat - used ∧
      (consumeBits used s).acc.toNat < 2 ^ (consumeBits used s).nbits.toNat := by
  have hn : (consumeBits used s).nbits.toNat = s.nbits.toNat - used := by
    simp only [consumeBits_nbits, BitVec.toNat_ofNat]
    exact Nat.mod_eq_of_lt (by omega)
  refine ⟨hn, ?_⟩
  rw [hn, consumeBits_acc, BitVec.toNat_ushiftRight, Nat.shiftRight_eq_div_pow]
  apply Nat.div_lt_of_lt_mul
  rwa [← Nat.pow_add, Nat.add_sub_cancel' h3]

end Sys2Proof.Machine
end

