-- ==== Sys2Proof/Laws/Table.lean ====
section
/-!
SUPPORT. What a well-formed CodeTable gives (R42), item by item, and prefix consistency in the words of R42.
-/

namespace Sys2Proof

theorem getD_all {p : Nat → Bool} {l : List Nat} (h : l.all p = true) (h0 : p 0 = true) (i : Nat) :
    p (l.getD i 0) = true := by
  rw [List.getD_eq_getElem?_getD]
  cases hi : l[i]? with
  | none => simpa using h0
  | some a => simpa using List.all_eq_true.mp h a (List.mem_of_getElem? hi)

theorem getD_all_of_lt {p : Nat → Bool} {l : List Nat} (h : l.all p = true) {i : Nat} (hi : i < l.length) :
    p (l.getD i 0) = true := by
  rw [List.getD_eq_getElem _ _ hi]
  exact List.all_eq_true.mp h _ (List.getElem_mem hi)

/-- What `prefixConsistent` tests, entry by entry. -/
theorem prefixConsistent_flip {lookup bits : List Nat} (h : prefixConsistent lookup bits = true) {b k : Nat}
    (hb : b < lookup.length) (hk : k < 8) (hw : bits.getD (lookup.getD b 0) 0 ≤ k) :
    lookup.getD (b ^^^ 2 ^ k) 0 = lookup.getD b 0 := by
  rw [prefixConsistent, List.all_eq_true] at h
  have hmem : (lookup[b], b) ∈ lookup.zipIdx := by
    rw [List.mem_zipIdx_iff_getElem?]; simp [hb]
  have := List.all_eq_true.mp (h _ hmem) k (by simpa using hk)
  rw [List.getD_eq_getElem _ _ hb] at hw ⊢
  simp only [Bool.or_eq_true, decide_eq_true_eq, beq_iff_eq] at this
  omega

theorem mod_succ_cases {b c k : Nat} (h : c % 2 ^ k = b % 2 ^ k) :
    c % 2 ^ (k + 1) = b % 2 ^ (k + 1) ∨ c % 2 ^ (k + 1) = (b ^^^ 2 ^ k) % 2 ^ (k + 1) := by
  have bit : ∀ n i, (n % 2 ^ k).testBit i = (decide (i < k) && n.testBit i) := fun n i => Nat.testBit_mod_two_pow n k i
  have low : ∀ i, i < k → c.testBit i = b.testBit i := fun i hi => by
    have := congrArg (Nat.testBit · i) h
    simpa [bit, hi] using this
  by_cases hk : c.testBit k = b.testBit k
  · left
    apply Nat.eq_of_testBit_eq
    intro i
    simp only [Nat.testBit_mod_two_pow]
    rcases Nat.lt_trichotomy i k with hi | hi | hi
    · simp [low i hi]
    · subst hi; simp [hk]
    · simp [show ¬ i < k + 1 by omega]
  · right
    apply Nat.eq_of_testBit_eq
    intro i
    simp only [Nat.testBit_mod_two_pow, Nat.testBit_xor, Nat.testBit_two_pow]
    rcases Nat.lt_trichotomy i k with hi | hi | hi
    · simp [low i hi, show ¬ k = i by omega]
    · subst hi
      cases hc : c.testBit i <;> cases hb : b.testBit i <;> simp_all
    · simp [show ¬ i < k + 1 by omega]

theorem xor_two_pow_lt {b k : Nat} (hb : b < 256) (hk : k < 8) : b ^^^ 2 ^ k < 256 := by
  have : (2 : Nat) ^ k < 2 ^ 8 := Nat.pow_lt_pow_right (by omega) hk
  exact Nat.xor_lt_two_pow (n := 8) hb this

/-- R42 items 5 and 6 in the words of R42. -/
theorem prefixConsistent_iff {lookup bits : List Nat} (hl : lookup.length = 256) :
    prefixConsistent lookup bits = true ↔
      ∀ b < 256, ∀ c < 256, c % 2 ^ bits.getD (lookup.getD b 0) 0 = b % 2 ^ bits.getD (lookup.getD b 0) 0 →
        lookup.getD c 0 = lookup.getD b 0 := by
  constructor
  · intro h
    suffices H : ∀ d k, d + k = 8 → ∀ b < 256, ∀ c < 256, bits.getD (lookup.getD b 0) 0 ≤ k →
        c % 2 ^ k = b % 2 ^ k → lookup.getD c 0 = lookup.getD b 0 by
      intro b hb c hc hmod
      by_cases hw : bits.getD (lookup.getD b 0) 0 ≤ 8
      · exact H (8 - bits.getD (lookup.getD b 0) 0) _ (by omega) b hb c hc le_rfl hmod
      · have hp : (2 : Nat) ^ 8 < 2 ^ bits.getD (lookup.getD b 0) 0 :=
          Nat.pow_lt_pow_right (by omega) (by omega)
        rw [Nat.mod_eq_of_lt (by omega), Nat.mod_eq_of_lt (by omega)] at hmod
        rw [hmod]
    intro d
    induction d with
    | zero =>
      intro k hk b hb c hc _ hmod
      obtain rfl : k = 8 := by omega
      rw [Nat.mod_eq_of_lt (by omega), Nat.mod_eq_of_lt (by omega)] at hmod
      rw [hmod]
    | succ d ih =>
      intro k hk b hb c hc hw hmod
      rcases mod_succ_cases hmod with h1 | h1
      · exact ih (k + 1) (by omega) b hb c hc (by omega) h1
      · have hflip := prefixConsistent_flip h (by omega : b < lookup.length) (by omega : k < 8) hw
        rw [ih (k + 1) (by omega) _ (xor_two_pow_lt hb (by omega)) c hc (by rw [hflip]; omega) h1, hflip]
  · intro h
    rw [prefixConsistent, List.all_eq_true]
    rintro ⟨v, b⟩ hmem
    rw [List.mem_zipIdx_iff_getElem?] at hmem
    have hb : b < lookup.length := (List.getElem?_eq_some_iff.mp hmem).1
    have hv : lookup.getD b 0 = v := by simp [List.getD_eq_getElem?_getD, hmem]
    rw [List.all_eq_true]
    intro k hk
    simp only [List.mem_range] at hk
    simp only [Bool.or_eq_true, decide_eq_true_eq, beq_iff_eq]
    by_cases hw : k < bits.getD v 0
    · exact Or.inl hw
    · right
      have := h b (by omega) (b ^^^ 2 ^ k) (xor_two_pow_lt (by omega) hk)
      rw [hv] at this
      apply this
      apply Nat.eq_of_testBit_eq
      intro i
      simp only [Nat.testBit_mod_two_pow, Nat.testBit_xor, Nat.testBit_two_pow]
      by_cases hi : i < bits.getD v 0
      · simp [show ¬ k = i by omega]
      · simp only [hi, decide_false, Bool.false_and]

section wf

variable {T : CodeTable}

theorem CodeTable.wf_parts (h : T.wf = true) :
    T.countsOk = true ∧ T.rangesOk = true ∧ prefixConsistent T.lenLookup T.lenBits = true ∧
      prefixConsistent T.distLookup T.distBits = true := by
  simpa [CodeTable.wf, and_assoc] using h

/-- R42 item 1. -/
theorem CodeTable.wf_counts (h : T.wf = true) :
    T.lenExtraBits.length = 16 ∧ T.lenBase.length = 16 ∧ T.lenBits.length = 16 ∧ T.lenAddend.length = 16 ∧
      T.lenLookup.length = 256 ∧ T.distBits.length = 64 ∧ T.distLookup.length = 256 := by
  simpa [CodeTable.countsOk, and_assoc] using (CodeTable.wf_parts h).1

/-- R42 item 2. -/
theorem CodeTable.wf_lenLookup (h : T.wf = true) (b : Nat) : T.lenLookupAt b < 16 := by
  have := (CodeTable.wf_parts h).2.1
  simp only [CodeTable.rangesOk, Bool.and_eq_true] at this
  simpa [CodeTable.lenLookupAt, CodeTable.distLookupAt, CodeTable.lenBitsAt, CodeTable.distBitsAt,
    CodeTable.lenExtraBitsAt] using getD_all (p := (· < 16)) this.1.1.1.1.1.1 (by simp) b

/-- R42 item 2. -/
theorem CodeTable.wf_distLookup (h : T.wf = true) (b : Nat) : T.distLookupAt b < 64 := by
  have := (CodeTable.wf_parts h).2.1
  simp only [CodeTable.rangesOk, Bool.and_eq_true] at this
  simpa [CodeTable.lenLookupAt, CodeTable.distLookupAt, CodeTable.lenBitsAt, CodeTable.distBitsAt,
    CodeTable.lenExtraBitsAt] using getD_all (p := (· < 64)) this.1.1.1.1.1.2 (by simp) b

/-- R42 item 3. -/
theorem CodeTable.wf_lenBits (h : T.wf = true) {i : Nat} (hi : i < 16) : 1 ≤ T.lenBitsAt i ∧ T.lenBitsAt i ≤ 8 := by
  have hr := (CodeTable.wf_parts h).2.1
  have hc := CodeTable.wf_counts h
  simp only [CodeTable.rangesOk, Bool.and_eq_true] at hr
  simpa [CodeTable.lenLookupAt, CodeTable.distLookupAt, CodeTable.lenBitsAt, CodeTable.distBitsAt,
    CodeTable.lenExtraBitsAt] using getD_all_of_lt hr.1.1.1.1.2 (by omega : i < T.lenBits.length)

/-- R42 item 3. -/
theorem CodeTable.wf_distBits (h : T.wf = true) {j : Nat} (hj : j < 64) :
    1 ≤ T.distBitsAt j ∧ T.distBitsAt j ≤ 8 := by
  have hr := (CodeTable.wf_parts h).2.1
  have hc := CodeTable.wf_counts h
  simp only [CodeTable.rangesOk, Bool.and_eq_true] at hr
  simpa [CodeTable.lenLookupAt, CodeTable.distLookupAt, CodeTable.lenBitsAt, CodeTable.distBitsAt,
    CodeTable.lenExtraBitsAt] using getD_all_of_lt hr.1.1.1.2 (by omega : j < T.distBits.length)

/-- R42 item 4. -/
theorem CodeTable.wf_lenExtraBits (h : T.wf = true) (i : Nat) : T.lenExtraBitsAt i ≤ 8 := by
  have hr := (CodeTable.wf_parts h).2.1
  simp only [CodeTable.rangesOk, Bool.and_eq_true] at hr
  simpa [CodeTable.lenLookupAt, CodeTable.distLookupAt, CodeTable.lenBitsAt, CodeTable.distBitsAt,
    CodeTable.lenExtraBitsAt] using getD_all (p := (· ≤ 8)) hr.1.1.2 (by simp) i

/-- R42 item 7. -/
theorem CodeTable.wf_addend (h : T.wf = true) {i : Nat} (hi : i < 16) :
    T.lenAddendAt i + 2 ^ T.lenExtraBitsAt i - 1 + 2 ≤ 65535 := by
  have hr := (CodeTable.wf_parts h).2.1
  have hc := CodeTable.wf_counts h
  simp only [CodeTable.rangesOk, Bool.and_eq_true, List.all_eq_true] at hr
  have ha : i < T.lenAddend.length := by omega
  have he : i < T.lenExtraBits.length := by omega
  have hm : (T.lenAddend[i], T.lenExtraBits[i]) ∈ T.lenAddend.zip T.lenExtraBits := by
    rw [List.mem_iff_getElem]
    exact ⟨i, by simp; omega, by simp⟩
  have := hr.1.2 _ hm
  rw [CodeTable.lenAddendAt, CodeTable.lenExtraBitsAt, List.getD_eq_getElem _ _ ha, List.getD_eq_getElem _ _ he]
  simpa using this

/-- R42 item 7. -/
theorem CodeTable.wf_endValue (h : T.wf = true) : T.endValue ≤ 65535 := by
  have hr := (CodeTable.wf_parts h).2.1
  simp only [CodeTable.rangesOk, Bool.and_eq_true] at hr
  simpa using hr.2

/-- R42 item 5. -/
theorem CodeTable.wf_lenPrefix (h : T.wf = true) {b c : Nat} (hb : b < 256) (hc : c < 256)
    (hmod : c % 2 ^ T.lenBitsAt (T.lenLookupAt b) = b % 2 ^ T.lenBitsAt (T.lenLookupAt b)) :
    T.lenLookupAt c = T.lenLookupAt b :=
  (prefixConsistent_iff (CodeTable.wf_counts h).2.2.2.2.1).mp (CodeTable.wf_parts h).2.2.1 b hb c hc hmod

/-- R42 item 6. -/
theorem CodeTable.wf_distPrefix (h : T.wf = true) {b c : Nat} (hb : b < 256) (hc : c < 256)
    (hmod : c % 2 ^ T.distBitsAt (T.distLookupAt b) = b % 2 ^ T.distBitsAt (T.distLookupAt b)) :
    T.distLookupAt c = T.distLookupAt b :=
  (prefixConsistent_iff (CodeTable.wf_counts h).2.2.2.2.2.2).mp (CodeTable.wf_parts h).2.2.2 b hb c hc hmod

/-- The range of the length value (R129). -/
theorem lengthValue_le (h : T.wf = true) {lc extra : Nat} (hl : lc < 16) (he : extra < 2 ^ T.lenExtraBitsAt lc) :
    lengthValue T lc extra ≤ 65533 := by
  have := CodeTable.wf_addend h hl
  simp only [lengthValue]
  split <;> omega

end wf

/-- The standard table is well-formed (R110). -/
theorem standardTable_wf : standardTable.wf = true := by decide +kernel

/-- The low part of the distance: the OR equals a sum (R98, R129). -/
theorem pairDistance_eq_add {dc tw low : Nat} (h : low < 2 ^ tw) : pairDistance dc tw low = dc * 2 ^ tw + low + 1 := by
  rw [pairDistance, ← Nat.shiftLeft_add_eq_or_of_lt h, Nat.shiftLeft_eq]

@[simp] theorem pairDistance_pos (dc tw low : Nat) : 0 < pairDistance dc tw low := by simp [pairDistance]

end Sys2Proof
end

