-- ==== Sys2Proof/Laws/Decode.lean ====
section
/-!
SUPPORT. The decoder: the one comparison (R126), the parts' ranges (R129), and the fields of a window.
-/

namespace Sys2Proof

theorem field_lt (v lo n : Nat) : field v lo n < 2 ^ n := Nat.mod_lt _ (Nat.two_pow_pos n)

@[simp] theorem field_zero_width (v lo : Nat) : field v lo 0 = 0 := by simp [field, Nat.mod_one]

theorem checkBits_sym {α : Type} {nbits used u : Nat} {a b : α} (h : checkBits nbits used a = .sym b u) :
    a = b ∧ used = u ∧ used ≤ nbits := by
  simp only [checkBits] at h
  split at h
  · cases h
  · cases h; exact ⟨rfl, rfl, by omega⟩

theorem checkBits_needBits {α : Type} {nbits used n : Nat} {a : α} (h : checkBits nbits used a = .needBits n) :
    nbits < used ∧ n = used - nbits := by
  simp only [checkBits] at h
  split at h
  · cases h; exact ⟨by omega, rfl⟩
  · cases h

/-- What a decode can answer, whatever it is built to answer: one of the three symbols, checked against its own bits. -/
theorem decodeWith_cases {α : Type} (onLiteral : Byte → α) (onEnd : LengthPart → α)
    (onPair : LengthPart → DistancePart → α) (win nbits : Nat) (T : CodeTable) (dictBits : Nat) :
    (field win 0 1 = 0 ∧ decodeWith onLiteral onEnd onPair win nbits T dictBits =
        checkBits nbits literalUsed (onLiteral (BitVec.ofNat 8 (field win 1 8)))) ∨
      (field win 0 1 ≠ 0 ∧ (lengthPart T win).val = T.endValue ∧
        decodeWith onLiteral onEnd onPair win nbits T dictBits =
          checkBits nbits (lengthPart T win).used (onEnd (lengthPart T win))) ∨
      (field win 0 1 ≠ 0 ∧ (lengthPart T win).val ≠ T.endValue ∧
        decodeWith onLiteral onEnd onPair win nbits T dictBits =
          checkBits nbits (distancePart T dictBits win (lengthPart T win)).used
            (onPair (lengthPart T win) (distancePart T dictBits win (lengthPart T win)))) := by
  by_cases h1 : field win 0 1 = 0
  · exact .inl ⟨h1, by simp only [decodeWith, h1, if_true]⟩
  · by_cases h2 : (lengthPart T win).val = T.endValue
    · exact .inr (.inl ⟨h1, h2, by simp only [decodeWith, h1, if_false, h2, if_true]⟩)
    · exact .inr (.inr ⟨h1, h2, by simp only [decodeWith, h1, if_false, h2]⟩)

section wf

variable {T : CodeTable} (h : T.wf = true)
include h

theorem lengthPart_code_lt (win : Nat) : (lengthPart T win).code < 16 := T.wf_lenLookup h _

omit h in
theorem lengthPart_extra_lt (win : Nat) :
    (lengthPart T win).extra < 2 ^ T.lenExtraBitsAt (lengthPart T win).code := field_lt _ _ _

theorem lengthPart_val_le (win : Nat) : (lengthPart T win).val ≤ 65533 :=
  lengthValue_le h (lengthPart_code_lt h win) (lengthPart_extra_lt win)

theorem lengthPart_used_range (win : Nat) : 2 ≤ (lengthPart T win).used ∧ (lengthPart T win).used ≤ 17 := by
  have h1 := T.wf_lenBits h (lengthPart_code_lt h win)
  have h2 := T.wf_lenExtraBits h (lengthPart T win).code
  change 2 ≤ lengthUsed T (lengthPart T win).code ∧ lengthUsed T (lengthPart T win).code ≤ 17
  simp only [lengthUsed]
  omega

theorem distancePart_code_lt (d win : Nat) (len : LengthPart) : (distancePart T d win len).code < 64 :=
  T.wf_distLookup h _

end wf

@[simp] theorem distanceResult_code (T : CodeTable) (d : Nat) (len : LengthPart) (dc low : Nat) :
    (distanceResult T d len dc low).code = dc := rfl
@[simp] theorem distanceResult_low (T : CodeTable) (d : Nat) (len : LengthPart) (dc low : Nat) :
    (distanceResult T d len dc low).low = low := rfl
@[simp] theorem distanceResult_distance (T : CodeTable) (d : Nat) (len : LengthPart) (dc low : Nat) :
    (distanceResult T d len dc low).distance = pairDistance dc (trailingWidth len.val d) low := rfl
@[simp] theorem distanceResult_length (T : CodeTable) (d : Nat) (len : LengthPart) (dc low : Nat) :
    (distanceResult T d len dc low).length = len.val + 2 := rfl
@[simp] theorem distanceResult_used (T : CodeTable) (d : Nat) (len : LengthPart) (dc low : Nat) :
    (distanceResult T d len dc low).used = len.used + distanceUsed T dc (trailingWidth len.val d) := rfl

/-- A distance part is what its own fields stand for. -/
theorem distancePart_eq_result (T : CodeTable) (d win : Nat) (len : LengthPart) :
    distancePart T d win len = distanceResult T d len (distancePart T d win len).code (distancePart T d win len).low :=
  rfl

/-- `used` of a symbol the decoder returns (R120): at least one bit and no more than there are. -/
theorem decodeWith_used {α : Type} {f : Byte → α} {g : LengthPart → α} {k : LengthPart → DistancePart → α}
    {win nbits : Nat} {T : CodeTable} {d u : Nat} {a : α} (h : decodeWith f g k win nbits T d = .sym a u) :
    1 ≤ u ∧ u ≤ nbits := by
  rcases decodeWith_cases f g k win nbits T d with ⟨_, e⟩ | ⟨_, _, e⟩ | ⟨_, _, e⟩ <;> rw [e] at h <;>
    obtain ⟨_, rfl, hu⟩ := checkBits_sym h
  · exact ⟨by simp [literalUsed], hu⟩
  · exact ⟨by simp [lengthPart, lengthUsed]; omega, hu⟩
  · exact ⟨by simp [distancePart, lengthPart, lengthUsed]; omega, hu⟩

/-- What R113's length rule can answer: a length code and extra bits whose length value is the one asked for. -/
theorem lengthFieldsOf_spec {T : CodeTable} {val lc extra : Nat} (h : lengthFieldsOf T val = some (lc, extra)) :
    lc < 16 ∧ lengthValue T lc extra = val ∧ extra < 2 ^ T.lenExtraBitsAt lc := by
  obtain ⟨i, hi, hf⟩ := Option.map_eq_some_iff.mp h
  obtain ⟨rfl, rfl⟩ := Prod.mk.inj hf
  have hlt : i < 16 := List.mem_range.mp (List.mem_of_find?_eq_some hi)
  have hp := List.find?_some hi
  refine ⟨hlt, ?_⟩
  by_cases he : T.lenExtraBitsAt i = 0
  · simp only [he, if_true, beq_iff_eq] at hp
    simp [lengthValue, he, hp]
  · simp only [he, if_false, Bool.and_eq_true, decide_eq_true_eq] at hp
    simp only [lengthValue, he, if_false, ne_eq, not_false_eq_true, if_true]
    omega

/-- What R113 can answer for a symbol: its fields, and they are well-formed. -/
theorem instrOf_spec {c : Context} {sym : Symbol} {i : Instr} (h : instrOf c sym = some i) :
    symbolFields c sym = some i ∧ i.wf c = true := by
  simpa [instrOf, Option.filter_eq_some_iff] using h
end Sys2Proof
end

