-- ==== Sys2Proof/Laws/Memory.lean ====
section
/-!
SUPPORT. The window RAM: a read after a write, the canonical form under every memory operation, and what the byte-serial
copy does (R74, R152, R159).
-/

namespace Sys2Proof.Machine

/-- Every listed address is above `a`. -/
theorem Memory_wf_cons {c : Host.Cell} {m : List Host.Cell} :
    Memory.wf (c :: m) = true ↔ c.1 < 8192 ∧ Memory.wf m = true ∧ ∀ d ∈ m, c.1 < d.1 := by
  induction m generalizing c with
  | nil => simp [Memory.wf]
  | cons d m ih =>
    simp only [Memory.wf, Bool.and_eq_true, decide_eq_true_eq, List.mem_cons, forall_eq_or_imp]
    constructor
    · rintro ⟨h1, h2⟩
      have hd := ih.mp h2
      exact ⟨by omega, h2, h1, fun e he => by have := hd.2.2 e he; omega⟩
    · rintro ⟨_, h2, h3, _⟩
      exact ⟨h3, h2⟩

theorem mem_cellWrite {m : List Host.Cell} {p : Nat} {b : Byte} {d : Host.Cell} (h : d ∈ cellWrite m p b) :
    d = (p, b) ∨ d ∈ m := by
  induction m with
  | nil => simpa [cellWrite] using h
  | cons c m ih =>
    simp only [cellWrite] at h
    split at h
    · simpa using h
    · split at h
      · rcases List.mem_cons.mp h with h | h
        · exact .inl h
        · exact .inr (List.mem_cons_of_mem _ h)
      · rcases List.mem_cons.mp h with h | h
        · exact .inr (h ▸ List.mem_cons_self)
        · rcases ih h with h | h
          · exact .inl h
          · exact .inr (List.mem_cons_of_mem _ h)

/-- A write inside the RAM keeps the canonical form. -/
theorem cellWrite_wf {m : List Host.Cell} {p : Nat} {b : Byte} (h : Memory.wf m = true) (hp : p < 8192) :
    Memory.wf (cellWrite m p b) = true := by
  induction m with
  | nil => simpa [cellWrite, Memory.wf] using hp
  | cons c m ih =>
    obtain ⟨h1, h2, h3⟩ := Memory_wf_cons.mp h
    simp only [cellWrite]
    split
    · exact Memory_wf_cons.mpr ⟨hp, h, fun d hd => by
        rcases List.mem_cons.mp hd with rfl | hd
        · assumption
        · have := h3 d hd; omega⟩
    · split
      · exact Memory_wf_cons.mpr ⟨hp, h2, fun d hd => by have := h3 d hd; omega⟩
      · exact Memory_wf_cons.mpr ⟨h1, ih h2, fun d hd => by
          rcases mem_cellWrite hd with rfl | hd
          · simp only; omega
          · exact h3 d hd⟩

/-- The byte at the written address is the byte written. -/
@[simp] theorem cellRead_cellWrite_same (m : List Host.Cell) (p : Nat) (b : Byte) :
    cellRead (cellWrite m p b) p = some b := by
  induction m with
  | nil => simp [cellWrite, cellRead]
  | cons c m ih =>
    simp only [cellWrite]
    split
    · simp [cellRead]
    · split
      · simp [cellRead]
      · simp [cellRead, *]

/-- Every other address reads as before. -/
theorem cellRead_cellWrite_other (m : List Host.Cell) {p q : Nat} (b : Byte) (h : q ≠ p) :
    cellRead (cellWrite m p b) q = cellRead m q := by
  induction m with
  | nil => simp [cellWrite, cellRead, h]
  | cons c m ih =>
    simp only [cellWrite]
    split
    · simp [cellRead, h]
    · split
      · simp_all [cellRead]
      · simp [cellRead, ih]

theorem windowByte_write_same (d : Nat) (m : List Host.Cell) (p : Nat) (b : Byte) :
    windowByte d (cellWrite m p b) p = b := by simp [windowByte]

theorem windowByte_write_other (d : Nat) (m : List Host.Cell) {p q : Nat} (b : Byte) (h : q ≠ p) :
    windowByte d (cellWrite m p b) q = windowByte d m q := by
  rw [windowByte, cellRead_cellWrite_other m b h, windowByte]

/-- `MemRead` after `MemWrite` to the same address. -/
@[simp] theorem memRead_memWrite_same (p : BitVec 13) (b : Byte) (s : State) : memRead (memWrite p b s) p = b := by
  simp [memRead, windowByte_write_same]

/-- `MemRead` after `MemWrite` to another address. -/
theorem memRead_memWrite_other {p q : BitVec 13} (b : Byte) (s : State) (h : q ≠ p) :
    memRead (memWrite p b s) q = memRead s q := by
  simp only [memRead, memWrite_draw, memWrite_window]
  exact windowByte_write_other _ _ _ (fun hq => h (BitVec.eq_of_toNat_eq hq))

theorem memWrite_wf {p : BitVec 13} {b : Byte} {s : State} (h : Memory.wf s.window = true) :
    Memory.wf (memWrite p b s).window = true := cellWrite_wf h p.isLt

theorem winWrite_wf {l : BitVec 13} {b : Byte} {s : State} (h : Memory.wf s.window = true) :
    Memory.wf (winWrite l b s).window = true := cellWrite_wf h (physical s l).isLt

/-- Translation is its own inverse (R63). -/
@[simp] theorem physical_physical (s : State) (l : BitVec 13) : physical s (physical s l) = l := by
  simp [physical]

/-- The selector flips bit 12 or nothing, so an address in the RAM stays in it (R63). -/
theorem xor_selector_lt {a sel : Nat} (ha : a < 8192) (hs : sel < 8192) : a ^^^ sel < 8192 :=
  Nat.xor_lt_two_pow (n := 13) ha hs

theorem xor_right_cancel {a b sel : Nat} (h : a ^^^ sel = b ^^^ sel) : a = b := by
  have := congrArg (· ^^^ sel) h
  simpa [Nat.xor_assoc] using this

/-- Where this stream wrote the source, a copy reads the byte there (R82). -/
theorem sourceByte_of_le {d total distance p : Nat} {m : List Host.Cell} (h : distance ≤ total) :
    sourceByte d total distance m p = windowByte d m p := by
  simp only [sourceByte, windowByte]
  split <;> simp [h]

theorem sourceByte_congr {d total distance p : Nat} {m m' : List Host.Cell} (h : cellRead m' p = cellRead m p) :
    sourceByte d total distance m' p = sourceByte d total distance m p := by rw [sourceByte, h, sourceByte]

/-- The copy keeps the canonical form. -/
theorem copyBytes_wf {d sel : Nat} (hs : sel < 8192) :
    ∀ {n total src dst : Nat} {m : List Host.Cell}, Memory.wf m = true → dst + n ≤ 8192 →
      Memory.wf (copyBytes d sel n total src dst m) = true
  | 0, _, _, _, _, h, _ => h
  | _ + 1, _, _, _, _, h, hn => by
    rw [copyBytes]
    exact copyBytes_wf hs (cellWrite_wf h (xor_selector_lt (by omega) hs)) (by omega)

/-- The copy leaves every cell outside its destination alone. -/
theorem cellRead_copyBytes_frame {d sel : Nat} :
    ∀ {n total src dst : Nat} {m : List Host.Cell} {a : Nat}, (a < dst ∨ dst + n ≤ a) →
      cellRead (copyBytes d sel n total src dst m) (a ^^^ sel) = cellRead m (a ^^^ sel)
  | 0, _, _, _, _, _, _ => rfl
  | _ + 1, _, _, _, _, a, h => by
    rw [copyBytes, cellRead_copyBytes_frame (by omega), cellRead_cellWrite_other]
    intro hx
    have := xor_right_cancel hx
    omega

/-- The copy leaves every byte outside its destination alone. -/
theorem copyBytes_frame {d sel n total src dst a : Nat} {m : List Host.Cell} (h : a < dst ∨ dst + n ≤ a) :
    windowByte d (copyBytes d sel n total src dst m) (a ^^^ sel) = windowByte d m (a ^^^ sel) := by
  rw [windowByte, cellRead_copyBytes_frame h, windowByte]

/-- Byte `k` of the copy is what a copy reads at its source, `dst - src` behind it, in the window as it is after the
copy: byte `k - distance` of the copy itself where the ranges overlap (R159), a free value where an earlier stream or
nothing wrote the source (R162). -/
theorem copyBytes_value {d sel : Nat} :
    ∀ {n total src dst : Nat} {m : List Host.Cell} {k : Nat}, src < dst → k < n →
      windowByte d (copyBytes d sel n total src dst m) ((dst + k) ^^^ sel) =
        sourceByte d (total + k) (dst - src) (copyBytes d sel n total src dst m) ((src + k) ^^^ sel)
  | 0, _, _, _, _, _, _, hk => by omega
  | n + 1, total, src, dst, m, 0, hs, _ => by
    rw [copyBytes]
    simp only [Nat.add_zero]
    rw [copyBytes_frame (by omega), windowByte_write_same]
    refine (sourceByte_congr ?_).symm
    rw [cellRead_copyBytes_frame (by omega), cellRead_cellWrite_other]
    intro hx
    have := xor_right_cancel hx
    omega
  | n + 1, total, src, dst, m, k + 1, hs, hk => by
    have := @copyBytes_value d sel n (total + 1) (src + 1) (dst + 1)
      (cellWrite m (dst ^^^ sel) (sourceByte d total (dst - src) m (src ^^^ sel))) k (by omega) (by omega)
    simpa [copyBytes, Nat.add_assoc, Nat.add_comm 1 k] using this

/-- What the copy engine's bytes are (R152, R159, R162): byte `k` is what a copy reads at its source. -/
theorem winRead_moveBytes {s : State} {n k : Nat} (hsrc : s.currentOffs.toNat < s.writeOffs.toNat)
    (hn : s.writeOffs.toNat + n ≤ 8192) (hk : k < n) :
    winRead (moveBytes n s) (BitVec.ofNat 13 (s.writeOffs.toNat + k)) =
      sourceByte s.draw (s.totalOut + k) (s.writeOffs.toNat - s.currentOffs.toNat) (moveBytes n s).window
        (physical s (BitVec.ofNat 13 (s.currentOffs.toNat + k))).toNat := by
  have := s.currentOffs.isLt
  have h := @copyBytes_value s.draw s.offsXor.toNat n s.totalOut s.currentOffs.toNat s.writeOffs.toNat s.window k hsrc hk
  simp only [winRead, memRead, physical, moveBytes_draw, moveBytes_window, moveBytes_offsXor, BitVec.toNat_xor,
    BitVec.toNat_ofNat]
  rwa [Nat.mod_eq_of_lt (by omega), Nat.mod_eq_of_lt (by omega)]

/-- The copy engine leaves every other coordinate alone. -/
theorem winRead_moveBytes_frame {s : State} {n : Nat} {l : BitVec 13}
    (h : l.toNat < s.writeOffs.toNat ∨ s.writeOffs.toNat + n ≤ l.toNat) :
    winRead (moveBytes n s) l = winRead s l := by
  simp only [winRead, memRead, physical, moveBytes_draw, moveBytes_window, moveBytes_offsXor, BitVec.toNat_xor]
  exact copyBytes_frame h

/-- Where this stream wrote the source, a copied byte equals the byte one distance behind it (R155, R159). -/
theorem winRead_moveBytes_own {s : State} {n k : Nat} (hsrc : s.currentOffs.toNat < s.writeOffs.toNat)
    (hn : s.writeOffs.toNat + n ≤ 8192) (hk : k < n)
    (hown : s.writeOffs.toNat - s.currentOffs.toNat ≤ s.totalOut + k) :
    winRead (moveBytes n s) (BitVec.ofNat 13 (s.writeOffs.toNat + k)) =
      winRead (moveBytes n s) (BitVec.ofNat 13 (s.currentOffs.toNat + k)) := by
  rw [winRead_moveBytes hsrc hn hk, sourceByte_of_le hown]
  rfl

end Sys2Proof.Machine
end

