-- ==== Sys2Proof/Laws/Step.lean ====
section
/-!
SUPPORT. What each meaning is, one equation per shape of instruction, what the guards and the copy engine can do, and
what a step does in each phase.
-/

namespace Sys2Proof.Machine

/-- PAIR.L0 to PAIR.L15 are the pair operation of their code (R155). -/
theorem exec_ofPair {lc : Nat} (h : lc < 16) (extra dc low : Nat) (s : State) :
    exec (.ofPair lc extra dc low) s = pairInstr lc extra dc low s := by
  interval_cases lc <;> rfl

/-- DIST.D0 to DIST.D63 are the distance operation of their code (R125). -/
theorem exec_ofDist {dc : Nat} (h : dc < 64) (low : Nat) (s : State) :
    exec (.ofDist dc low) s = distInstr dc low s := by
  interval_cases dc <;> rfl

theorem exec_mode (b : Byte) (s : State) : exec (.mode b) s = execMode b s := rfl
theorem exec_dict (b : Byte) (s : State) : exec (.dict b) s = execDict b s := rfl
theorem exec_lit (b : Byte) (s : State) : exec (.lit b) s = execLit b s := rfl
theorem exec_endMark (lc extra : Nat) (s : State) : exec (.endMark lc extra) s = execEndMark lc extra s := rfl
theorem exec_isEnded (s : State) : exec .isEnded s = execIsEnded s := rfl
theorem exec_processChunk (chunk : List Byte) (s : State) :
    exec (.processChunk chunk) s = execProcessChunk chunk s := rfl
theorem exec_reset (s : State) : exec .reset s = execReset s := rfl
theorem exec_new (table : CodeTable) (s : State) : exec (.new table) s = execNew table s := rfl

theorem full_iff (s : State) : s.full = true ↔ s.writeOffs = 8192 := by simp [State.full]

theorem full_true {s : State} (h : s.writeOffs = 8192) : s.full = true := (full_iff s).mpr h

theorem full_false {s : State} (h : s.writeOffs ≠ 8192) : s.full = false := by
  cases hf : s.full with
  | false => rfl
  | true => exact absurd ((full_iff s).mp hf) h

@[simp] theorem refill_full (s : State) : (refill s).full = s.full := rfl

theorem whenIdle_idle {s : State} (h : s.phase = .idle) (run : State → Host.Outcome State Fault Refusal) :
    whenIdle s run = run s := by simp [whenIdle, h]

theorem whenIdle_busy {s : State} (h : s.phase ≠ .idle) (run : State → Host.Outcome State Fault Refusal) :
    whenIdle s run = .refused .commandOverlap := by simp [whenIdle, h]

/-- What the tests before a symbol can do (R176). -/
theorem applySymbol_cases (used : Nat) (effect : State → State) (s : State) :
    (s.writeOffs = 8192 ∧ applySymbol used effect s = stopHalfFull s) ∨
      (s.writeOffs ≠ 8192 ∧ s.nbits.toNat < used ∧ applySymbol used effect s = stopNeedBits s) ∨
      (s.writeOffs ≠ 8192 ∧ used ≤ s.nbits.toNat ∧ applySymbol used effect s = effect s) := by
  by_cases h : s.writeOffs = 8192
  · exact .inl ⟨h, by simp [applySymbol, full_true h]⟩
  · by_cases hu : used > s.nbits.toNat
    · exact .inr (.inl ⟨h, hu, by simp [applySymbol, full_false h, hu]⟩)
    · exact .inr (.inr ⟨h, by omega, by simp [applySymbol, full_false h, hu]⟩)

@[simp] theorem endEffect_eq (used : Nat) (s : State) : endEffect used s = stopEnded (consumeBits used s) := rfl

/-- Pair fields with the sentinel's length value are the end marker (R97). -/
theorem pairInstr_end {lc extra : Nat} {s : State} (h : lengthValue s.table lc extra = s.table.endValue) (dc low : Nat) :
    pairInstr lc extra dc low s =
      .next (applySymbol (lengthUsed s.table lc) (endEffect (lengthUsed s.table lc)) { s with decoded := none }) := by
  simp [pairInstr, lengthFields, h]

/-- Any other pair fields are a pair of R98's distance, R97's length and the sum of the widths (R125, R155). -/
theorem pairInstr_pair {lc extra : Nat} {s : State} (h : lengthValue s.table lc extra ≠ s.table.endValue)
    (dc low : Nat) :
    pairInstr lc extra dc low s =
      let tw := trailingWidth (lengthValue s.table lc extra) s.dictBits.toNat
      let used := lengthUsed s.table lc + distanceUsed s.table dc tw
      .next (applySymbol used (pairEffect (pairDistance dc tw low) (lengthValue s.table lc extra + 2) used)
        { s with decoded := none }) := congrArg Host.Outcome.next (if_neg h)

/-- What the copy engine can do (R152): all of the copy, or the part that fills the half. -/
theorem copyRun_cases {s : State} (hw : s.writeOffs.toNat ≤ 8192) :
    (s.remainingLen.toNat ≤ 8192 - s.writeOffs.toNat ∧ copyRun s = moveBytes s.remainingLen.toNat s ∧
        (copyRun s).remainingLen = 0) ∨
      (8192 - s.writeOffs.toNat < s.remainingLen.toNat ∧
        copyRun s = stopHalfFull (moveBytes (8192 - s.writeOffs.toNat) s) ∧ (copyRun s).writeOffs = 8192 ∧
        (copyRun s).remainingLen.toNat = s.remainingLen.toNat - (8192 - s.writeOffs.toNat)) := by
  by_cases h : s.remainingLen.toNat ≤ 8192 - s.writeOffs.toNat
  · have hc : copyCount s = s.remainingLen.toNat := by simp [copyCount]; omega
    have h0 : (moveBytes s.remainingLen.toNat s).remainingLen = 0 := by simp
    have he : copyRun s = moveBytes s.remainingLen.toNat s := by simp only [copyRun, hc, h0, if_true]
    exact .inl ⟨h, he, by rw [he, h0]⟩
  · have hc : copyCount s = 8192 - s.writeOffs.toNat := by simp [copyCount]; omega
    have hr : (moveBytes (8192 - s.writeOffs.toNat) s).remainingLen.toNat =
        s.remainingLen.toNat - (8192 - s.writeOffs.toNat) := by
      have := s.remainingLen.isLt
      simp only [moveBytes_remainingLen, BitVec.toNat_sub, BitVec.toNat_ofNat]
      omega
    have h0 : (moveBytes (8192 - s.writeOffs.toNat) s).remainingLen ≠ 0 := fun hz => by
      rw [hz] at hr; simp at hr; omega
    have he : copyRun s = stopHalfFull (moveBytes (8192 - s.writeOffs.toNat) s) := by
      simp only [copyRun, hc, h0, if_false]
    refine .inr ⟨by omega, he, ?_, ?_⟩
    · rw [he, stopHalfFull_writeOffs, moveBytes_writeOffs]
      apply BitVec.eq_of_toNat_eq
      simp only [BitVec.toNat_add, BitVec.toNat_ofNat, show BitVec.toNat (8192 : BitVec 14) = 8192 from rfl]
      omega
    · rw [he, stopHalfFull_remainingLen, hr]

/-- The copy engine keeps the window's canonical form (R60). -/
theorem copyRun_window_wf {s : State} (hs : s.offsXor.toNat < 8192) (h : Memory.wf s.window = true)
    (hw : s.writeOffs.toNat ≤ 8192) : Memory.wf (copyRun s).window = true := by
  rw [copyRun_window, moveBytes_window]
  exact copyBytes_wf hs h (by simp only [copyCount]; omega)

/-! A step, by phase. -/

theorem step_idle_waiting {s : State} (h : s.phase = .idle) (hp : s.port = []) : step s = .next s := by
  simp [step, fetch, fetchCommand, h, hp]

theorem step_idle_command {s : State} {r : CommandRecord} {rest : List CommandRecord} (h : s.phase = .idle)
    (hp : s.port = r :: rest) : step s = exec (decodeCommand r) { s with port := rest } := by
  simp [step, fetch, fetchCommand, h, hp]

theorem step_modeByte {s : State} {b : Byte} (h : s.phase = .modeByte) (hr : s.reason = .none)
    (hc : s.chunk[0]? = some b) : step s = exec (.mode b) s := by
  simp only [step, fetch, fetchMode, h, hr, hc, ne_eq, not_true_eq_false, if_false]

theorem step_dictByte {s : State} {b : Byte} (h : s.phase = .dictByte) (hc : s.chunk[1]? = some b) :
    step s = exec (.dict b) s := by
  simp only [step, fetch, fetchDict, h, hc]

theorem step_swap {s : State} (h : s.phase = .swap) : step s = .next { enterLoop s with phase := .loop } := by
  simp [step, fetch, h]

theorem step_loop_close {s : State} (h : s.phase = .loop) (hr : s.reason ≠ .none) :
    step s = .next (closeCommand (loopResponse s) s) := by
  simp [step, fetch, fetchSymbol, h, hr]

theorem step_loop_pair {s : State} {dist : DistancePart} (h : s.phase = .loop) (hr : s.reason = .none)
    (hd : s.decoded = some dist) :
    step s = exec (.ofPair (lengthPart s.table s.acc.toNat).code (lengthPart s.table s.acc.toNat).extra
      dist.code dist.low) s := by
  simp [step, fetch, fetchSymbol, h, hr, hd]

theorem step_loop_full {s : State} (h : s.phase = .loop) (hr : s.reason = .none) (hd : s.decoded = none)
    (hf : s.writeOffs = 8192) : step s = .next (stopHalfFull (refill s)) := by
  simp [step, fetch, fetchSymbol, h, hr, hd, full_true hf]

theorem step_loop_stage {s : State} {i : Instr} {used : Nat} (h : s.phase = .loop) (hr : s.reason = .none)
    (hd : s.decoded = none) (hf : s.writeOffs ≠ 8192)
    (hi : decodeStage (refill s).acc.toNat (refill s).nbits.toNat s.table s.dictBits.toNat = .sym i used) :
    step s = exec i (refill s) := by
  simp only [refill_acc, refill_nbits] at hi
  simp [step, fetch, fetchSymbol, h, hr, hd, full_false hf, hi]

theorem step_loop_needBits {s : State} {n : Nat} (h : s.phase = .loop) (hr : s.reason = .none)
    (hd : s.decoded = none) (hf : s.writeOffs ≠ 8192)
    (hi : decodeStage (refill s).acc.toNat (refill s).nbits.toNat s.table s.dictBits.toNat = .needBits n) :
    step s = .next (stopNeedBits (refill s)) := by
  simp only [refill_acc, refill_nbits] at hi
  simp [step, fetch, fetchSymbol, h, hr, hd, full_false hf, hi]

end Sys2Proof.Machine
end

