-- ==== Sys2Proof/Tests/Slice0.lean ====
section
/-!
SUPPORT. The model's own tests: what WellFormed refuses; every constructor's decoding, from words written out from the
spec's formats; worked examples of the spec, one small step or command each; and, for every statement of
Obligations.lean with a hypothesis, a state and operands that meet all of them (theorems `witness_…`).

Stream bits are written first bit first (R70), grouped by field.
-/

namespace Sys2Proof.Tests
set_option Elab.async false
open Sys2Proof Sys2Proof.Machine

/-- The state an outcome answers. -/
def nextOf : Host.Outcome State Fault Refusal → Option State
  | .next s => some s
  | _ => none

/-- The name an outcome refuses with. -/
def refusalOf : Host.Outcome State Fault Refusal → Option Refusal
  | .refused r => some r
  | _ => none

/-- The value of bits in stream order. -/
def stream (bits : List Nat) : Nat := Nat.ofDigits 2 bits

def bytes (l : List Nat) : List Byte := l.map (BitVec.ofNat 8)

def context (dictBits lenVal : Nat) : Context := { table := standardTable, dictBits := dictBits, lenVal := lenVal }

/-- Between commands, after the header (`dict_bits` 4) and the two literals A and I. -/
def between (acc nbits : Nat) : State :=
  { State.reset with
    dictBits := 4, needMode := false, needDict := false, writeOffs := 4098, totalIn := 10, totalOut := 2
    window := [(4096, 0x41), (4097, 0x49)], acc := BitVec.ofNat 64 acc, nbits := BitVec.ofNat 7 nbits }

/-- The same inside a PROCESS_CHUNK, in its loop. -/
def running (acc nbits : Nat) : State := { between acc nbits with phase := .loop, start := 4096 }

/-- The half is full and a pair of distance 2 is cut with `rest` bytes to go. -/
def cut (rest : Nat) : State :=
  { between 0 0 with
    writeOffs := 8192, totalOut := 4096, swapPending := true, remainingLen := BitVec.ofNat 16 rest, currentOffs := 8190
    window := [(8190, 0x41), (8191, 0x49)] }

/-- What a chunk leaves. -/
def afterChunk (chunk : List Nat) (s : State) : State := processChunk (bytes chunk) s

/-- A chunk's response. -/
def answerTo (chunk : List Nat) (s : State) : Option Response := (afterChunk chunk s).response

/-! WellFormed: each check refuses a term that fails it. -/

theorem test_wf_refuses_mode_1 : Instr.wf (context 4 1) (.mode 1) = false := by decide +kernel
theorem test_wf_refuses_end_without_sentinel : Instr.wf (context 4 1) (.endMark 15 254) = false := by decide +kernel
theorem test_wf_refuses_length_code_16 : Instr.wf (context 4 1) (.endMark 16 0) = false := by decide +kernel
theorem test_wf_refuses_wide_extra : Instr.wf (context 4 1) (.pairL8 2 0 0) = false := by decide +kernel
theorem test_wf_refuses_pair_with_sentinel : Instr.wf (context 4 1) (.pairL15 255 0 0) = false := by decide +kernel
theorem test_wf_refuses_distance_code_64 : Instr.wf (context 4 1) (.pairL0 0 64 0) = false := by decide +kernel
theorem test_wf_refuses_wide_low : Instr.wf (context 4 1) (.pairL1 0 0 16) = false := by decide +kernel
theorem test_wf_refuses_wide_low_of_short_pair : Instr.wf (context 4 1) (.pairL0 0 0 4) = false := by decide +kernel
theorem test_wf_refuses_wide_low_of_dist : Instr.wf (context 4 1) (.distD63 16) = false := by decide +kernel
theorem test_wf_refuses_wrong_counts :
    Instr.wf (context 4 1) (.new { standardTable with lenBase := [] }) = false := by decide +kernel
theorem test_wf_refuses_lookup_out_of_bounds :
    CodeTable.wf { standardTable with lenLookup := 16 :: standardLenLookup.tail } = false := by decide +kernel
theorem test_wf_refuses_width_0 :
    CodeTable.wf { standardTable with distBits := 0 :: standardDistBits.tail } = false := by decide +kernel
theorem test_wf_refuses_nine_extra_bits :
    CodeTable.wf { standardTable with lenExtraBits := 9 :: standardTable.lenExtraBits.tail } = false := by
  decide +kernel
theorem test_wf_refuses_prefix_inconsistent_lengths :
    CodeTable.wf { standardTable with lenLookup := 14 :: standardLenLookup.tail } = false := by decide +kernel
theorem test_wf_refuses_prefix_inconsistent_distances :
    CodeTable.wf { standardTable with distLookup := 0 :: standardDistLookup.tail } = false := by decide +kernel
theorem test_wf_refuses_wide_addend :
    CodeTable.wf { standardTable with lenAddend := 65534 :: standardTable.lenAddend.tail } = false := by decide +kernel
theorem test_wf_refuses_wide_sentinel : CodeTable.wf { standardTable with endValue := 65536 } = false := by
  decide +kernel
theorem test_wf_accepts_fields_at_their_bounds :
    Instr.wf (context 4 1) (.pairL14 127 63 15) = true ∧ Instr.wf (context 4 1) (.endMark 15 255) = true ∧
      Instr.wf (context 4 0) (.distD0 3) = true := by decide +kernel

/-! Decoding, from words written out from the formats R91 to R98 and the stream-order columns of R104 and R106. -/

/-- R94: class bit 0, then the byte 0x41, first bit first. -/
theorem test_decode_lit :
    decodeInstr (stream [0,  1, 0, 0, 0, 0, 0, 1, 0]) 9 standardTable 4 = .sym (.lit 0x41) 9 := by decide +kernel

/-- R96, R108: class bit 1, length code 15, eight extra bits set; 0xFF01. -/
theorem test_decode_end :
    decodeInstr (stream [1,  0, 0, 0, 0, 0, 0, 0,  1, 1, 1, 1, 1, 1, 1, 1]) 16 standardTable 6 =
      .sym (.endMark 15 255) 16 := by decide +kernel

/-- R95: class bit 1, code, extra bits, distance code, trailing field (2 bits for PAIR.L0, else 4). -/
def pairWords : List (List Nat × Instr) := [
   ([1,  1, 0, 1,  1, 0, 0, 0, 1,  0, 1], .pairL0 0 5 2),
   ([1,  1, 1,  0, 1, 0, 1, 0, 0,  1, 1, 0, 1], .pairL1 0 18 11),
   ([1,  1, 0, 0,  0, 0, 1, 1, 0, 0, 0,  1, 1, 0, 1], .pairL2 0 31 11),
   ([1,  0, 1, 1,  0, 0, 0, 1, 0, 1, 1,  1, 1, 0, 1], .pairL3 0 44 11),
   ([1,  0, 1, 0, 1,  0, 0, 0, 0, 0, 1, 1, 0,  1, 1, 0, 1], .pairL4 0 57 11),
   ([1,  0, 1, 0, 0,  1, 0, 0, 0, 0,  1, 1, 0, 1], .pairL5 0 6 11),
   ([1,  0, 0, 1, 1,  0, 1, 0, 0, 1, 1,  1, 1, 0, 1], .pairL6 0 19 11),
   ([1,  0, 0, 1, 0, 1,  0, 0, 1, 0, 1, 1, 1,  1, 1, 0, 1], .pairL7 0 32 11),
   ([1,  0, 0, 1, 0, 0,  1,  0, 0, 0, 1, 0, 1, 0,  1, 1, 0, 1], .pairL8 1 45 11),
   ([1,  0, 0, 0, 1, 1,  0, 1,  0, 0, 0, 0, 0, 1, 0, 1,  1, 1, 0, 1], .pairL9 2 58 11),
   ([1,  0, 0, 0, 1, 0,  0, 1, 1,  0, 1, 1, 1, 1, 1,  1, 1, 0, 1], .pairL10 6 7 11),
   ([1,  0, 0, 0, 0, 1, 1,  1, 0, 1, 1,  0, 1, 0, 0, 1, 0,  1, 1, 0, 1], .pairL11 13 20 11),
   ([1,  0, 0, 0, 0, 1, 0,  0, 1, 1, 0, 1,  0, 0, 1, 0, 1, 1, 0,  1, 1, 0, 1], .pairL12 22 33 11),
   ([1,  0, 0, 0, 0, 0, 1,  1, 0, 0, 0, 1, 1,  0, 0, 0, 1, 0, 0, 1,  1, 1, 0, 1], .pairL13 49 46 11),
   ([1,  0, 0, 0, 0, 0, 0, 1,  0, 1, 1, 0, 1, 0, 1,  0, 0, 0, 0, 0, 1, 0, 0,  1, 1, 0, 1], .pairL14 86 59 11),
   ([1,  0, 0, 0, 0, 0, 0, 0,  1, 0, 1, 1, 0, 0, 1, 0,  0, 1, 1, 1, 1, 0,  1, 1, 0, 1], .pairL15 77 8 11)]

theorem test_decode_pairs : pairWords.all (fun row =>
    decodeInstr (stream row.1) row.1.length standardTable 4 == .sym row.2 row.1.length) = true := by
  decide +kernel

/-- R95 fields 4 and 5: distance code and a trailing field of 5 bits. -/
def distWords0 : List (List Nat × Instr) := [
   ([1, 1,  1, 0, 0, 0, 1], .distD0 17),
   ([1, 0, 1, 1,  1, 0, 0, 0, 1], .distD1 17),
   ([1, 0, 1, 0,  1, 0, 0, 0, 1], .distD2 17),
   ([1, 0, 0, 1, 1,  1, 0, 0, 0, 1], .distD3 17),
   ([1, 0, 0, 1, 0,  1, 0, 0, 0, 1], .distD4 17),
   ([1, 0, 0, 0, 1,  1, 0, 0, 0, 1], .distD5 17),
   ([1, 0, 0, 0, 0,  1, 0, 0, 0, 1], .distD6 17),
   ([0, 1, 1, 1, 1, 1,  1, 0, 0, 0, 1], .distD7 17),
   ([0, 1, 1, 1, 1, 0,  1, 0, 0, 0, 1], .distD8 17),
   ([0, 1, 1, 1, 0, 1,  1, 0, 0, 0, 1], .distD9 17),
   ([0, 1, 1, 1, 0, 0,  1, 0, 0, 0, 1], .distD10 17),
   ([0, 1, 1, 0, 1, 1,  1, 0, 0, 0, 1], .distD11 17),
   ([0, 1, 1, 0, 1, 0,  1, 0, 0, 0, 1], .distD12 17),
   ([0, 1, 1, 0, 0, 1,  1, 0, 0, 0, 1], .distD13 17),
   ([0, 1, 1, 0, 0, 0,  1, 0, 0, 0, 1], .distD14 17),
   ([0, 1, 0, 1, 1, 1,  1, 0, 0, 0, 1], .distD15 17)]

theorem test_decode_dist_0_to_15 : distWords0.all
    (fun row => decodeDistance (context 5 1) (stream row.1) == row.2) = true := by
  decide +kernel

def distWords1 : List (List Nat × Instr) := [
   ([0, 1, 0, 1, 1, 0,  1, 0, 0, 0, 1], .distD16 17),
   ([0, 1, 0, 1, 0, 1,  1, 0, 0, 0, 1], .distD17 17),
   ([0, 1, 0, 1, 0, 0,  1, 0, 0, 0, 1], .distD18 17),
   ([0, 1, 0, 0, 1, 1,  1, 0, 0, 0, 1], .distD19 17),
   ([0, 1, 0, 0, 1, 0,  1, 0, 0, 0, 1], .distD20 17),
   ([0, 1, 0, 0, 0, 1,  1, 0, 0, 0, 1], .distD21 17),
   ([0, 1, 0, 0, 0, 0, 1,  1, 0, 0, 0, 1], .distD22 17),
   ([0, 1, 0, 0, 0, 0, 0,  1, 0, 0, 0, 1], .distD23 17),
   ([0, 0, 1, 1, 1, 1, 1,  1, 0, 0, 0, 1], .distD24 17),
   ([0, 0, 1, 1, 1, 1, 0,  1, 0, 0, 0, 1], .distD25 17),
   ([0, 0, 1, 1, 1, 0, 1,  1, 0, 0, 0, 1], .distD26 17),
   ([0, 0, 1, 1, 1, 0, 0,  1, 0, 0, 0, 1], .distD27 17),
   ([0, 0, 1, 1, 0, 1, 1,  1, 0, 0, 0, 1], .distD28 17),
   ([0, 0, 1, 1, 0, 1, 0,  1, 0, 0, 0, 1], .distD29 17),
   ([0, 0, 1, 1, 0, 0, 1,  1, 0, 0, 0, 1], .distD30 17),
   ([0, 0, 1, 1, 0, 0, 0,  1, 0, 0, 0, 1], .distD31 17)]

theorem test_decode_dist_16_to_31 : distWords1.all
    (fun row => decodeDistance (context 5 1) (stream row.1) == row.2) = true := by
  decide +kernel

def distWords2 : List (List Nat × Instr) := [
   ([0, 0, 1, 0, 1, 1, 1,  1, 0, 0, 0, 1], .distD32 17),
   ([0, 0, 1, 0, 1, 1, 0,  1, 0, 0, 0, 1], .distD33 17),
   ([0, 0, 1, 0, 1, 0, 1,  1, 0, 0, 0, 1], .distD34 17),
   ([0, 0, 1, 0, 1, 0, 0,  1, 0, 0, 0, 1], .distD35 17),
   ([0, 0, 1, 0, 0, 1, 1,  1, 0, 0, 0, 1], .distD36 17),
   ([0, 0, 1, 0, 0, 1, 0,  1, 0, 0, 0, 1], .distD37 17),
   ([0, 0, 1, 0, 0, 0, 1,  1, 0, 0, 0, 1], .distD38 17),
   ([0, 0, 1, 0, 0, 0, 0,  1, 0, 0, 0, 1], .distD39 17),
   ([0, 0, 0, 1, 1, 1, 1,  1, 0, 0, 0, 1], .distD40 17),
   ([0, 0, 0, 1, 1, 1, 0,  1, 0, 0, 0, 1], .distD41 17),
   ([0, 0, 0, 1, 1, 0, 1,  1, 0, 0, 0, 1], .distD42 17),
   ([0, 0, 0, 1, 1, 0, 0,  1, 0, 0, 0, 1], .distD43 17),
   ([0, 0, 0, 1, 0, 1, 1,  1, 0, 0, 0, 1], .distD44 17),
   ([0, 0, 0, 1, 0, 1, 0,  1, 0, 0, 0, 1], .distD45 17),
   ([0, 0, 0, 1, 0, 0, 1,  1, 0, 0, 0, 1], .distD46 17),
   ([0, 0, 0, 1, 0, 0, 0,  1, 0, 0, 0, 1], .distD47 17)]

theorem test_decode_dist_32_to_47 : distWords2.all
    (fun row => decodeDistance (context 5 1) (stream row.1) == row.2) = true := by
  decide +kernel

def distWords3 : List (List Nat × Instr) := [
   ([0, 0, 0, 0, 1, 1, 1, 1,  1, 0, 0, 0, 1], .distD48 17),
   ([0, 0, 0, 0, 1, 1, 1, 0,  1, 0, 0, 0, 1], .distD49 17),
   ([0, 0, 0, 0, 1, 1, 0, 1,  1, 0, 0, 0, 1], .distD50 17),
   ([0, 0, 0, 0, 1, 1, 0, 0,  1, 0, 0, 0, 1], .distD51 17),
   ([0, 0, 0, 0, 1, 0, 1, 1,  1, 0, 0, 0, 1], .distD52 17),
   ([0, 0, 0, 0, 1, 0, 1, 0,  1, 0, 0, 0, 1], .distD53 17),
   ([0, 0, 0, 0, 1, 0, 0, 1,  1, 0, 0, 0, 1], .distD54 17),
   ([0, 0, 0, 0, 1, 0, 0, 0,  1, 0, 0, 0, 1], .distD55 17),
   ([0, 0, 0, 0, 0, 1, 1, 1,  1, 0, 0, 0, 1], .distD56 17),
   ([0, 0, 0, 0, 0, 1, 1, 0,  1, 0, 0, 0, 1], .distD57 17),
   ([0, 0, 0, 0, 0, 1, 0, 1,  1, 0, 0, 0, 1], .distD58 17),
   ([0, 0, 0, 0, 0, 1, 0, 0,  1, 0, 0, 0, 1], .distD59 17),
   ([0, 0, 0, 0, 0, 0, 1, 1,  1, 0, 0, 0, 1], .distD60 17),
   ([0, 0, 0, 0, 0, 0, 1, 0,  1, 0, 0, 0, 1], .distD61 17),
   ([0, 0, 0, 0, 0, 0, 0, 1,  1, 0, 0, 0, 1], .distD62 17),
   ([0, 0, 0, 0, 0, 0, 0, 0,  1, 0, 0, 0, 1], .distD63 17)]

theorem test_decode_dist_48_to_63 : distWords3.all
    (fun row => decodeDistance (context 5 1) (stream row.1) == row.2) = true := by
  decide +kernel

/-- R91, R92: the header bytes. -/
theorem test_decode_header : decodeIn (context 4 1) .modeByte (.byte 0) = some (.mode 0) ∧
    decodeIn (context 4 1) .dictByte (.byte 6) = some (.dict 6) := by decide

/-- R38: the command numbers. -/
theorem test_decode_commands :
    ([0, 1, 2, 3] : List (BitVec 2)).map (fun c => decodeCommand { cmd := c, chunk := [7], table := standardTable }) =
      [.isEnded, .processChunk [7], .reset, .new standardTable] := by decide +kernel

/-- R126: one bit of END missing; R125: one bit of the pair of R125's example missing. -/
theorem test_need_bits : decode 0xFF01 15 standardTable 4 = .needBits 1 ∧
    decode 0x3C9 12 standardTable 4 = .needBits 1 := by decide +kernel

/-- R125's example. -/
theorem test_decode_example_of_R125 : decode 0x3C9 13 standardTable 4 = .sym (.pair 2 11) 13 := by decide +kernel

/-- Program P1 of 95_test_vectors.md is what the assembler of R113 makes of its items. -/
theorem test_assemble_P1 :
    assemble standardTable 0 4 [.lit 0x41, .lit 0x49, .pairL8 1 0 1, .endMark 15 255] =
      bytes [0x00, 0x04, 0x82, 0x24, 0x25, 0x8F, 0x80, 0x7F] := by decide +kernel

/-- The same stream from its symbols: R113 finds length code 8 with extra bit 1 for length 11, and distance code 0 with
trailing field 1 for distance 2. -/
theorem test_assemble_symbols_P1 :
    assembleSymbols standardTable 0 4 [.literal 0x41, .literal 0x49, .pair 2 11, .endMark] =
      some (bytes [0x00, 0x04, 0x82, 0x24, 0x25, 0x8F, 0x80, 0x7F]) := by decide +kernel

/-- R113: lengths at the edges of the codes, the last distance code; no pair of the sentinel's length 519, and no
distance code 64. -/
theorem test_symbol_fields :
    instrOf (context 4 1) (.pair 256 2) = some (.pairL0 0 63 3) ∧
      instrOf (context 4 1) (.pair 1024 10) = some (.pairL8 0 63 15) ∧
      instrOf (context 6 1) (.pair 4096 518) = some (.pairL15 254 63 63) ∧
      instrOf (context 6 1) (.pair 1 519) = none ∧ instrOf (context 4 1) (.pair 1025 3) = none := by decide +kernel

/-! The bare words of the opcode table. -/

theorem test_table_words :
    decodeTableWord 8 0 = some (.mode 0) ∧ decodeTableWord 16 0xFF01 = some (.endMark 15 255) ∧
      decodeTableWord 8 0x0B = some (.pairL0 0 63 0) ∧ decodeTableWord 8 0x3E = some (.distD7 0) := by decide +kernel

theorem test_table_word_is_the_first_instruction :
    step (State.reset.withFetchWord 16 0xFF01) = exec (.endMark 15 255) (State.reset.withFetchWord 16 0xFF01) ∧
      step (State.reset.withFetchWord 8 0x3E) = exec (.distD7 0) (State.reset.withFetchWord 8 0x3E) := ⟨rfl, rfl⟩

/-! One step or command each, from the worked examples of the rules. -/

/-- R154's example, at write cursor 4098: byte 4098 becomes 0x41. -/
theorem test_lit : nextOf (exec (.lit 0x41) (running 0x82 9)) =
    some { running 0 0 with
      writeOffs := 4099, totalOut := 3, window := [(4096, 0x41), (4097, 0x49), (4098, 0x41)] } := by
  decide +kernel

/-- R157's example. -/
theorem test_end : nextOf (exec (.endMark 15 255) (running 0xFF01 17)) =
    some { running 0 1 with ended := true, reason := .ended } := by decide +kernel

/-- R155's example: eleven bytes AIAIAIAIAIA at 4098 to 4108. -/
theorem test_pair : (nextOf (exec (.pairL8 1 0 1) (running 0x3C9 13))).map (fun t =>
      ((List.range 11).map fun k => winRead t (BitVec.ofNat 13 (4098 + k)), t.writeOffs, t.remainingLen)) =
    some (bytes [0x41, 0x49, 0x41, 0x49, 0x41, 0x49, 0x41, 0x49, 0x41, 0x49, 0x41], 4109, 0) := by decide +kernel

/-- R156: distance 4097 with `dict_bits` 8, nothing consumed. -/
theorem test_far_pair : nextOf (exec (.pairL1 0 16 0) { running 0 40 with dictBits := 8 }) =
    some { running 0 40 with dictBits := 8, fatal := true, faultCode := .distanceRange, reason := .fault } := by
  decide +kernel

/-- R125's example in two stages: the distance part, then the pair. -/
theorem test_dist : (nextOf (exec (.distD0 1) (running 0x3C9 13))).map (·.decoded) =
    some (some { code := 0, low := 1, distance := 2, length := 11, used := 13 }) := by decide +kernel

/-- R155: three bytes of room for eleven; the rest waits for the swap. -/
theorem test_cut_pair : (nextOf (exec (.pairL8 1 0 1)
      { running 0x3C9 13 with writeOffs := 8189, window := [(8187, 0x41), (8188, 0x49)] })).map (fun t =>
      ([winRead t 8189, winRead t 8190, winRead t 8191], t.remainingLen, t.currentOffs, t.swapPending, t.reason)) =
    some ([0x41, 0x49, 0x41], 8, 8190, true, .halfFull) := by decide +kernel

/-- R82, R162: where an earlier stream wrote the source a copy reads the free value, whatever that stream left; where this
stream did, the byte. -/
theorem test_stale_source : sourceByte 0 1 2 [(4096, 0x41)] 4096 = Config.staleByte 0 4096 0x41 ∧
    sourceByte 0 2 2 [(4096, 0x41)] 4096 = 0x41 := ⟨rfl, rfl⟩

/-- R39, R77: IS_ENDED is a command, so the response of the one before is gone. -/
theorem test_is_ended_ends_the_response : (nextOf (exec .isEnded
      (afterChunk [0x00, 0x04] State.reset))).map (·.response) = some none := by decide +kernel

/-- R161: the rest of a cut pair continues in the other half. -/
theorem test_resume : (enterLoop (cut 3)).window = [(0, 0x41), (1, 0x49), (2, 0x41), (8190, 0x41), (8191, 0x49)] ∧
    (enterLoop (cut 3)).writeOffs = 4099 ∧ (enterLoop (cut 3)).offsXor = 4096 := by decide +kernel

/-- R141's example, and R142's. -/
theorem test_mode_dict : answerTo [0x01, 0x06] State.reset = some (emptyResponse .fatal .unsupportedMode .none) ∧
    (afterChunk [0x00, 0x04] State.reset).dictBits = 4 := by decide +kernel

/-- R174's example, program P1. -/
theorem test_process_chunk : answerTo [0x00, 0x04, 0x82, 0x24, 0x25, 0x8F, 0x80, 0x7F] State.reset =
    some { status := .ok, faultCode := .none, stop := .ended, consumed := 8, outOff := 4096, outLen := 13 } := by
  decide +kernel

/-- R173's example: after P1 IS_ENDED answers 1. -/
theorem test_is_ended : (nextOf (exec .isEnded
      (afterChunk [0x00, 0x04, 0x82, 0x24, 0x25, 0x8F, 0x80, 0x7F] State.reset))).map (·.answer) =
    some (some true) := by decide +kernel

/-- R172's example. -/
theorem test_reset : (nextOf (exec .reset { between 5 3 with offsXor := 4096, writeOffs := 5000, ended := true })).map
      (fun t => (t.offsXor, t.writeOffs, t.ended, t.window)) =
    some (0, 4096, false, [(4096, 0x41), (4097, 0x49)]) := by decide +kernel

/-- R171's example. -/
theorem test_new : (nextOf (exec (.new standardTable) (between 5 3))).map
      (fun t => (t.writeOffs, t.needMode, t.needDict, t.window)) = some (4096, true, true, []) := by
  decide +kernel

/-- R240: no command inside another. -/
theorem test_overlap : exec .reset (running 0 0) = .refused .commandOverlap := by rfl

/-- R30: after the two header bytes and before any symbol the stream position is 16, whatever was read ahead; after P1 it
is 16 + 9 + 9 + 13 + 16 of 64 bits. -/
theorem test_stream_bitpos : (afterChunk [0x00, 0x04] State.reset).streamBitpos = 16 ∧
    (afterChunk [0x00, 0x04, 0x01] State.reset).streamBitpos = 16 ∧
    (afterChunk [0x00, 0x04, 0x82, 0x24, 0x25, 0x8F, 0x80, 0x7F] State.reset).streamBitpos = 63 := by decide +kernel

/-! Witnesses. -/

theorem between_good : (between 0xFF01 16).Inv := by
  refine ⟨standardTable_wf, by decide, by decide, by decide, ⟨?_, ?_, ?_, ?_, ?_, ?_, ?_, ?_, ?_, ?_⟩, rfl, rfl⟩ <;> decide

theorem cut_good : (cut 3).Inv := by
  refine ⟨standardTable_wf, by decide, by decide, by decide, ⟨?_, ?_, ?_, ?_, ?_, ?_, ?_, ?_, ?_, ?_⟩, rfl, rfl⟩ <;> decide

/-- Before the header, with an old byte in the window (R45). -/
def fresh : State := { State.reset with window := [(7, 0x55)] }

theorem fresh_good : fresh.Inv := by
  refine ⟨standardTable_wf, by decide, by decide, by decide, ⟨?_, ?_, ?_, ?_, ?_, ?_, ?_, ?_, ?_, ?_⟩, rfl, rfl⟩ <;> decide

theorem running_good : (running 0x82 9).Inv := by
  refine ⟨standardTable_wf, by decide, by decide, by decide, fun _ => ?_, fun h => absurd rfl h, by decide⟩
  refine ⟨?_, ?_, ?_, ?_, ?_, ?_, ?_, ?_⟩ <;> decide

theorem last_place_good : ({ between 0x82 9 with writeOffs := 8191, totalOut := 4095 } : State).Inv := by
  refine ⟨standardTable_wf, by decide, by decide, by decide, ⟨?_, ?_, ?_, ?_, ?_, ?_, ?_, ?_, ?_, ?_⟩, rfl, rfl⟩ <;> decide

/-- A stalled stream: `dict_bits` 255, 57 bits of a pair. -/
def stalled : State := { between 3 57 with dictBits := 255 }

theorem stalled_good : stalled.Inv := by
  refine ⟨standardTable_wf, by decide, by decide, by decide, ⟨?_, ?_, ?_, ?_, ?_, ?_, ?_, ?_, ?_, ?_⟩, rfl, rfl⟩ <;> decide

theorem exec_chunk (chunk : List Byte) {s : State} (h : s.phase = .idle) :
    exec (.processChunk chunk) s = .next (processChunk chunk s) := by
  rw [exec, execProcessChunk, whenIdle, if_pos h]

theorem witness_ResetCommandResetsRegistersOnly : (between 5 3).phase = .idle := rfl

theorem witness_ResetTwiceIsResetOnce : (between 5 3).phase = .idle ∧
    exec .reset (between 5 3) = .next (dropOutputs (resetRegisters (between 5 3))) := ⟨rfl, rfl⟩

theorem witness_NewBindsAWellFormedTable : (between 5 3).phase = .idle ∧ standardTable.wf = true ∧
    CodeTable.wf { standardTable with endValue := 65536 } = false := ⟨rfl, standardTable_wf, by decide +kernel⟩

/-- Both directions: a table that passes, one that fails. -/
theorem witness_WellFormedTableIsTheSevenItems : standardTable.wf = true ∧
    CodeTable.wf { standardTable with endValue := 65536 } = false := ⟨standardTable_wf, by decide +kernel⟩

/-- With the nine bits there and with one missing. -/
theorem witness_LiteralDecodesInNineBits : field 0x82 0 1 = 0 ∧ ¬ 9 > 9 ∧ 9 > 8 := by decide

theorem witness_EndMarkerDecodesWithoutDistance : field 0xFF01 0 1 = 1 ∧
    standardTable.lenLookupAt (field 0xFF01 1 8) = 15 ∧ standardTable.lenExtraBitsAt 15 = 8 ∧
    standardTable.lenAddendAt 15 + field 0xFF01 (1 + standardTable.lenBitsAt 15) 8 = standardTable.endValue := by
  decide +kernel

/-- One window for each clause; the last pair has the greatest standard length and distance. -/
theorem witness_DecodeResultsStayInRange : standardTable.wf = true ∧
    decode 0x82 9 standardTable 0 = .sym (.literal 0x41) 9 ∧ decode 3 0 standardTable 255 = .needBits 267 ∧
    decode 0x3F00FE01 30 standardTable 6 = .sym (.pair 4096 518) 30 :=
  ⟨standardTable_wf, by decide +kernel, by decide +kernel, by decide +kernel⟩

theorem witness_SymbolDependsOnUsedBitsOnly : standardTable.wf = true ∧
    decode 0x3C9 13 standardTable 4 = .sym (.pair 2 11) 13 ∧ 0xE3C9 % 2 ^ 13 = 0x3C9 % 2 ^ 13 ∧ 13 ≤ 16 :=
  ⟨standardTable_wf, by decide +kernel, by decide, by decide⟩

theorem witness_PaddingNeverFakesASymbol : standardTable.wf = true ∧
    decode 0x3C9 16 standardTable 4 = .sym (.pair 2 11) 13 ∧ 12 < 13 ∧ 0xF3C9 % 2 ^ 12 = 0x3C9 % 2 ^ 12 :=
  ⟨standardTable_wf, by decide +kernel, by decide, by decide⟩

theorem witness_EncodedPairDecodesToItsFormulas : (context 4 1).table.wf = true ∧
    pairFieldsOk (context 4 1).table (context 4 1).dictBits 8 1 0 1 = true :=
  ⟨standardTable_wf, by decide +kernel⟩

theorem witness_EncodedSymbolDecodesToItself : (context 4 1).table.wf = true ∧
    Instr.wf (context 4 1) (.pairL8 1 0 1) = true ∧ (Instr.pairL8 1 0 1).space = .symbol ∧
    encode (context 4 1) (.pairL8 1 0 1) = .bits { value := 0x3C9, width := 13 } :=
  ⟨standardTable_wf, by decide +kernel, rfl, by decide +kernel⟩

/-- One instruction of each word space. -/
theorem witness_DecodeOfEncodeIsTheInstruction : (context 4 1).table.wf = true ∧
    ([.mode 0, .dict 6, .lit 0x41, .endMark 15 255, .pairL8 1 0 1, .distD63 15, .isEnded, .processChunk [7], .reset,
      .new standardTable] : List Instr).all (Instr.wf (context 4 1)) = true :=
  ⟨standardTable_wf, by decide +kernel⟩

theorem witness_EncodeOfDecodeIsTheBits :
    decodeInstr 0xE3C9 16 standardTable 4 = .sym (.pairL8 1 0 1) 13 := by decide +kernel

theorem witness_ModeZeroGoesOnToDict : fresh.headerOutstanding = true := by decide

/-- The least and the greatest mode byte that is refused. -/
theorem witness_ModeNonzeroRaisesFatal :
    fresh.headerOutstanding = true ∧ (1 : Byte) ≠ 0 ∧ (255 : Byte) ≠ 0 := by decide

theorem witness_DictIsStoredVerbatim : fresh.headerOutstanding = true := by decide

theorem witness_HeaderBytesDoNothingAfterTheHeader : (between 0 0).headerOutstanding = false := by decide

theorem witness_HeaderBackpressureChangesNothing : fresh.Ready ∧ fresh.headerOutstanding = true :=
  ⟨⟨rfl, rfl, rfl⟩, by decide⟩

theorem witness_UnsupportedModeIsFatal : fresh.Ready ∧ fresh.headerOutstanding = true ∧ (1 : Byte) ≠ 0 :=
  ⟨⟨rfl, rfl, rfl⟩, by decide, by decide⟩

theorem witness_HeaderIsConsumedAsOneUnit : fresh.Inv ∧ fresh.Ready ∧ fresh.needMode = true :=
  ⟨fresh_good, ⟨rfl, rfl, rfl⟩, rfl⟩

/-- The last place of the half, with exactly nine bits. -/
theorem witness_LiteralWritesItsByte :
    let s : State := { running 0x82 9 with writeOffs := 8191 }
    s.writeOffs.toNat < 8192 ∧ 9 ≤ s.nbits.toNat := by decide

theorem witness_EndMarkerEndsTheStream : (running 0xFF01 16).writeOffs ≠ 8192 ∧
    1 + standardTable.lenBitsAt 15 + standardTable.lenExtraBitsAt 15 ≤ (running 0xFF01 16).nbits.toNat := by
  decide +kernel

/-- Distance 4097, one too far. -/
theorem witness_FarPairRaisesDistanceRange :
    let s : State := { running 0 40 with dictBits := 8 }
    s.writeOffs ≠ 8192 ∧ lengthValue s.table 1 0 ≠ s.table.endValue ∧
      lengthUsed s.table 1 + distanceUsed s.table 16 (trailingWidth 1 8) ≤ s.nbits.toNat ∧
      trailingWidth (lengthValue s.table 1 0) s.dictBits.toNat = trailingWidth 1 8 ∧
      pairDistance 16 (trailingWidth 1 8) 0 = 4097 := by decide +kernel

/-- A source this stream wrote and one it did not; distance 4096 from the cursor's lowest place; a pair of length 11
that ends exactly at the half's end. -/
theorem witness_PairThatFitsIsCopiedWhole :
    let s : State := { running 0x3C9 13 with writeOffs := 4096 }
    let u : State := { running 0x3C9 13 with writeOffs := 8181 }
    s.offsXor = 0 ∧ lengthValue s.table 8 1 ≠ s.table.endValue ∧ lengthValue s.table 8 1 + 2 = 11 ∧
      lengthUsed s.table 8 + distanceUsed s.table 0 (trailingWidth 9 4) ≤ s.nbits.toNat ∧
      pairDistance 0 (trailingWidth 9 4) 1 = 2 ∧ 2 ≤ s.totalOut + 0 ∧ ¬ 4096 ≤ s.totalOut + 10 ∧
      pairDistance 63 6 63 = 4096 ∧ 4096 ≤ s.writeOffs.toNat ∧
      4096 ≤ u.writeOffs.toNat ∧ u.writeOffs.toNat + 11 = 8192 := by decide +kernel

/-- One byte of room. -/
theorem witness_PairThatDoesNotFitIsCut :
    let s : State := { running 0x3C9 13 with writeOffs := 8191 }
    4096 ≤ s.writeOffs.toNat ∧ s.writeOffs.toNat < 8192 ∧ s.offsXor = 0 ∧
      lengthValue s.table 8 1 ≠ s.table.endValue ∧ lengthValue s.table 8 1 + 2 = 11 ∧
      lengthUsed s.table 8 + distanceUsed s.table 0 (trailingWidth 9 4) ≤ s.nbits.toNat ∧
      pairDistance 0 (trailingWidth 9 4) 1 = 2 ∧ 8192 < s.writeOffs.toNat + 11 := by decide +kernel

theorem witness_PairFieldsOfTheSentinelAreEnd : (running 0xFF01 16).decoded = none ∧
    lengthValue (running 0xFF01 16).table 15 255 = (running 0xFF01 16).table.endValue := by decide +kernel

theorem witness_DistanceFieldYieldsThePair :
    let s := running 0x3C9 13
    let len := lengthPart s.table s.acc.toNat
    field s.acc.toNat 0 1 = 1 ∧ len.val = 9 ∧ len.val ≠ s.table.endValue ∧
      len.used + s.table.distBitsAt 0 + 4 ≤ s.nbits.toNat := by decide +kernel

/-- One bit of the pair missing; a literal; the end marker. -/
theorem witness_DistanceFieldStopsWithoutItsPair :
    (let s := running 0x3C9 12
     let len := lengthPart s.table s.acc.toNat
     field s.acc.toNat 0 1 = 1 ∧ len.val ≠ s.table.endValue ∧ len.val = 9 ∧
       s.nbits.toNat < len.used + s.table.distBitsAt 0 + 4) ∧
    field (running 0x82 9).acc.toNat 0 1 = 0 ∧
    (lengthPart standardTable (running 0xFF01 16).acc.toNat).val = standardTable.endValue := by decide +kernel

/-- The full half, with the well-formed end marker at the bits; one bit less than a literal, the length part of that end
marker and a pair need. -/
theorem witness_SymbolsStopBeforeAnyEffect :
    ({ running 0xFF01 16 with writeOffs := 8192 } : State).writeOffs = 8192 ∧
      endFieldsOk standardTable 15 255 = true ∧ (running 0 8).writeOffs ≠ 8192 ∧ (running 0 8).nbits.toNat < 9 ∧
      (running 0x7F01 15).nbits.toNat < lengthUsed standardTable 15 ∧
      lengthValue standardTable 8 1 ≠ standardTable.endValue ∧
      (running 0 12).nbits.toNat < lengthUsed standardTable 8 + distanceUsed standardTable 0 4 := by decide +kernel

/-- A full half reports HALF_FULL even when END comes next (R211). -/
theorem test_end_in_full_half : (nextOf (exec (.endMark 15 255) { running 0xFF01 16 with writeOffs := 8192 })).map
    (fun t => (t.reason, t.swapPending, t.ended, t.nbits)) = some (.halfFull, true, false, 16) := by decide +kernel

theorem witness_SwapRenamesTheHalves : 4096 ≤ (4096 : BitVec 13).toNat ∧ 4096 ≤ (8191 : BitVec 13).toNat ∧
    (4095 : BitVec 13).toNat < 4096 ∧ (0 : BitVec 13).toNat < 4096 := by decide

theorem witness_WindowReadsTheLastWrite : (4095 : BitVec 13) ≠ 4096 := by decide

/-- A chunk that ends, and one that fills the accumulator. -/
theorem witness_RefillTakesBytesAboveTheValidBits :
    (running 0x82 9).nbits.toNat ≤ 64 ∧ (running 0x82 9).acc.toNat < 2 ^ (running 0x82 9).nbits.toNat ∧
      ({ running 0x82 9 with chunk := bytes [1, 2] } : State).pos ≤ (bytes [1, 2]).length ∧
      (refill { running 0x82 9 with chunk := bytes [1, 2] }).nbits = 25 ∧
      (refill { running 0x82 9 with chunk := bytes [1, 2, 3, 4, 5, 6, 7] }).nbits = 57 := by decide +kernel

theorem witness_IsEndedAnswersTheFlag : (between 0 0).phase = .idle := rfl

theorem witness_OverlappingCommandsAreRefused : (running 0 0).phase ≠ .idle := by decide

theorem witness_EarlyOutsChangeNothing :
    let s : State := { between 0 1 with ended := true }
    let u : State := { between 0 1 with fatal := true, faultCode := .distanceRange }
    s.phase = .idle ∧ s.ended = true ∧ u.phase = .idle ∧ u.fatal = true := by decide

theorem witness_ProcessChunkAlwaysCompletes : (cut 3).Inv ∧ (cut 3).phase = .idle := ⟨cut_good, rfl⟩

/-- Status OK with each stop, FATAL, NEED_MODE and NEED_DICT_BITS. -/
theorem witness_ResponseFollowsTheFlags :
    fresh.Inv ∧ (between 0xFF01 16).Inv ∧ fresh.phase = .idle ∧ (between 0xFF01 16).phase = .idle ∧
      exec (.processChunk (bytes [1])) fresh = .next (afterChunk [1] fresh) ∧
      (answerTo [] (between 0xFF01 16)).map (fun r => (r.status, r.stop)) = some (.ok, .ended) ∧
      (answerTo [0, 4, 1] fresh).map (fun r => (r.status, r.stop)) = some (.ok, .needBits) ∧
      (answerTo [1] fresh).map (fun r => (r.status, r.faultCode)) = some (.fatal, .unsupportedMode) ∧
      (answerTo [] fresh).map (·.status) = some .needMode ∧
      (answerTo [0] fresh).map (·.status) = some .needDictBits :=
  ⟨fresh_good, between_good, rfl, rfl, exec_chunk _ rfl, by decide +kernel, by decide +kernel, by decide +kernel,
    by decide +kernel,
    by decide +kernel⟩

/-- A command that swaps, resumes a copy and writes three bytes. -/
theorem witness_CommandWritesOnlyItsOutputSlice : (cut 3).Inv ∧ (cut 3).phase = .idle ∧
    exec (.processChunk (bytes [])) (cut 3) = .next (afterChunk [] (cut 3)) ∧
    answerTo [] (cut 3) =
      some { status := .ok, faultCode := .none, stop := .needBits, consumed := 0, outOff := 0, outLen := 3 } ∧
    (cut 3).needMode = false :=
  ⟨cut_good, rfl, exec_chunk _ rfl, by decide +kernel, rfl⟩

/-- The chunk exhausted, and the stream stalled with a byte left. -/
theorem witness_NeedBitsMeansChunkExhaustedOrStalled :
    (cut 3).Inv ∧ (cut 3).phase = .idle ∧
      exec (.processChunk (bytes [1])) (cut 3) = .next (afterChunk [1] (cut 3)) ∧
      (answerTo [1] (cut 3)).map (fun r => (r.stop, r.consumed)) = some (.needBits, 1) ∧
      stalled.Inv ∧ stalled.phase = .idle ∧
      exec (.processChunk (bytes [1])) stalled = .next (afterChunk [1] stalled) ∧
      (answerTo [1] stalled).map (fun r => (r.stop, r.consumed)) = some (.needBits, 0) :=
  ⟨cut_good, rfl, exec_chunk _ rfl, by decide +kernel, stalled_good, rfl, exec_chunk _ rfl, by decide +kernel⟩

theorem witness_StalledStreamStaysStalled : stalled.Inv ∧ stalled.Ready ∧ stalled.needMode = false ∧
    stalled.swapPending = false ∧ stalled.Stalled :=
  ⟨stalled_good, ⟨rfl, rfl, rfl⟩, rfl, rfl, by decide, _, (by decide +kernel :
    decode stalled.acc.toNat stalled.nbits.toNat stalled.table stalled.dictBits.toNat = .needBits 210)⟩

theorem witness_RegistersDoNotDependOnWindowBytes :
    exec (.processChunk (bytes [1])) (cut 3) = .next (afterChunk [1] (cut 3)) := exec_chunk _ rfl

/-- The first five bytes of P1, then the rest. -/
theorem witness_SplitChunkEqualsWholeChunk :
    let t := afterChunk [0x00, 0x04, 0x82, 0x24, 0x25] fresh
    fresh.Inv ∧ fresh.phase = .idle ∧
      exec (.processChunk (bytes [0x00, 0x04, 0x82, 0x24, 0x25])) fresh = .next t ∧
      (answerTo [0x00, 0x04, 0x82, 0x24, 0x25] fresh).map (fun r => (r.stop, r.consumed)) = some (.needBits, 5) ∧
      exec (.processChunk (bytes [0x8F, 0x80, 0x7F])) t = .next (afterChunk [0x8F, 0x80, 0x7F] t) ∧
      exec (.processChunk (bytes [0x00, 0x04, 0x82, 0x24, 0x25] ++ bytes [0x8F, 0x80, 0x7F])) fresh =
        .next (processChunk (bytes [0x00, 0x04, 0x82, 0x24, 0x25] ++ bytes [0x8F, 0x80, 0x7F]) fresh) :=
  ⟨fresh_good, rfl, exec_chunk _ rfl, by decide +kernel, exec_chunk _ (by decide +kernel), exec_chunk _ rfl⟩

/-- END, FATAL, and HALF_FULL. -/
theorem witness_AppendedBytesDoNotChangeAStop :
    fresh.Inv ∧ fresh.phase = .idle ∧ ({ between 0x82 9 with writeOffs := 8191, totalOut := 4095 } : State).Inv ∧
      (answerTo [0x00, 0x04, 0x82, 0x24, 0x25, 0x8F, 0x80, 0x7F] fresh).map (·.stop) = some .ended ∧
      (answerTo [0x01] fresh).map (·.status) = some .fatal ∧ (between 0x82 9).phase = .idle ∧
      (answerTo [] { between 0x82 9 with writeOffs := 8191, totalOut := 4095 }).map (·.stop) = some .halfFull ∧
      exec (.processChunk (bytes [0x01])) fresh = .next (afterChunk [0x01] fresh) ∧
      exec (.processChunk (bytes [0x01] ++ bytes [0x02])) fresh =
        .next (processChunk (bytes [0x01] ++ bytes [0x02]) fresh) :=
  ⟨fresh_good, rfl, last_place_good, by decide +kernel, by decide +kernel, rfl, by decide +kernel, exec_chunk _ rfl,
    exec_chunk _ rfl⟩

/-- The 4096 bytes the active half of `cut 3` holds, in output order. -/
def cutOutput : List Byte := (List.range 4096).map fun k => winRead (cut 3) (BitVec.ofNat 13 (4096 + k))

theorem cut_shows : (cut 3).Shows cutOutput := by
  refine ⟨by simp [cutOutput]; rfl, fun j hj => ?_⟩
  have hj : j < 4096 := lt_of_lt_of_le hj (le_trans (min_le_left _ _) (by simp [cutOutput]))
  have hw : (cut 3).writeOffs.toNat = 8192 := rfl
  simp [cutOutput, List.getD, hj, hw, show 8192 - 1 - j = 4096 + (4095 - j) by omega]

/-- The output A I shown before a literal, before the pair of R155's example, and before the swap of a cut pair. -/
theorem witness_SymbolsFollowTheReferenceDecoder :
    (running 0x82 9).Shows (bytes [0x41, 0x49]) ∧ (running 0x82 9).Running ∧ (running 0x82 9).writeOffs ≠ 8192 ∧
      9 ≤ (running 0x82 9).nbits.toNat ∧ (running 0x3C9 13).Shows (bytes [0x41, 0x49]) ∧ (running 0x3C9 13).Running ∧
      pairFieldsOk standardTable 4 8 1 0 1 = true ∧
      lengthUsed standardTable 8 + distanceUsed standardTable 0 4 ≤ (running 0x3C9 13).nbits.toNat ∧
      pairDistance 0 4 1 ≤ (bytes [0x41, 0x49]).length ∧ (cut 3).Shows cutOutput ∧ (cut 3).Boundary ∧
      (cut 3).swapPending = true ∧ 8192 - (cut 3).currentOffs.toNat ≤ cutOutput.length := by
  refine ⟨by unfold State.Shows; decide, ?_, by decide, by decide, by unfold State.Shows; decide, ?_, by decide +kernel,
    by decide +kernel, by decide +kernel, cut_shows, cut_good.phase_ok.1, rfl, by simp [cutOutput]; decide⟩ <;>
  refine ⟨?_, ?_, ?_, ?_, ?_, ?_, ?_, ?_⟩ <;> decide

/-- One state for each clause. -/
theorem witness_StepRunsTheDecodedInstruction :
    (let r : CommandRecord := { cmd := 2, chunk := [], table := standardTable }
     let s : State := { between 0 0 with port := [r] }
     s.phase = .idle ∧ s.port = r :: []) ∧
    (let s : State := { fresh with phase := .modeByte, chunk := [0, 4] }
     s.phase = .modeByte ∧ s.reason = .none ∧ s.chunk[0]? = some 0) ∧
    (let s : State := { fresh with phase := .dictByte, chunk := [0, 4] }
     s.phase = .dictByte ∧ s.chunk[1]? = some 4) ∧
    (let s := running 0x3C9 13
     s.phase = .loop ∧ s.reason = .none ∧ s.decoded = none ∧ s.writeOffs ≠ 8192 ∧
       decodeStage (refill s).acc.toNat (refill s).nbits.toNat s.table s.dictBits.toNat = .sym (.distD0 1) 13) ∧
    (let dist : DistancePart := { code := 0, low := 1, distance := 2, length := 11, used := 13 }
     let s : State := { running 0x3C9 13 with decoded := some dist }
     s.phase = .loop ∧ s.reason = .none ∧ s.decoded = some dist) := by decide +kernel

theorem witness_StagedPairIsTheDecodedPair : (running 0x3C9 13).table.wf = true ∧
    decode (running 0x3C9 13).acc.toNat (running 0x3C9 13).nbits.toNat (running 0x3C9 13).table
      (running 0x3C9 13).dictBits.toNat = .sym (.pair 2 11) 13 := ⟨standardTable_wf, by decide +kernel⟩

theorem witness_StepRefusesOnlyMalformedTables :
    let table : CodeTable := { standardTable with endValue := 65536 }
    refusalOf (step { between 0 0 with port := [{ cmd := 3, chunk := [], table := table }] }) =
      some .malformedTable := by decide +kernel

theorem witness_SmallStepsEqualProcessChunk : (cut 3).Inv ∧ (cut 3).phase = .idle ∧
    exec (.processChunk (bytes [1])) (cut 3) = .next (afterChunk [1] (cut 3)) := ⟨cut_good, rfl, exec_chunk _ rfl⟩

/-- A step of the loop and a step between commands. -/
theorem witness_EveryStepKeepsTheInvariant :
    (running 0x82 9).Inv ∧
      nextOf (step (running 0x82 9)) =
        some { running 0 0 with
          writeOffs := 4099, totalOut := 3, window := [(4096, 0x41), (4097, 0x49), (4098, 0x41)] } ∧
      (cut 3).Inv ∧ step (cut 3) = .next (cut 3) := ⟨running_good, by decide +kernel, cut_good, rfl⟩

theorem witness_OnlyResetAndNewClearFatalAndEnded :
    let s : State := { running 0x82 9 with ended := true }
    let u : State := { running 0x82 9 with fatal := true }
    (nextOf (exec (.lit 0x41) s)).isSome = true ∧ (nextOf (exec (.lit 0x41) u)).isSome = true ∧
      Instr.lit 0x41 ≠ .reset ∧ ∀ T, Instr.lit 0x41 ≠ .new T :=
  ⟨by decide +kernel, by decide +kernel, by decide, fun _ => by simp⟩

theorem witness_TableAndHeaderHaveFewWriters :
    (nextOf (exec (.lit 0x41) (running 0x82 9))).isSome = true ∧ Instr.lit 0x41 ≠ .reset ∧
      (∀ T, Instr.lit 0x41 ≠ .new T) ∧ (∀ b, Instr.lit 0x41 ≠ .dict b) ∧
      ∀ chunk, Instr.lit 0x41 ≠ .processChunk chunk :=
  ⟨by decide +kernel, by decide, fun _ => by simp, fun _ => by simp, fun _ => by simp⟩

theorem witness_HistoryHalfIsReadOnly :
    let s : State := { running 0x82 9 with writeOffs := 4096 }
    (Instr.lit 0x41).space = .symbol ∧ s.offsXor = 0 ∧ 4096 ≤ s.writeOffs.toNat ∧ s.writeOffs.toNat ≤ 8192 ∧
      (nextOf (exec (.lit 0x41) s)).isSome = true ∧ (4095 : BitVec 13).toNat < 4096 := by decide +kernel

theorem witness_AssembledSymbolDecodesToItself : (context 4 1).table.wf = true ∧
    instrOf (context 4 1) (.pair 2 11) = some (.pairL8 1 0 1) ∧
    encode (context 4 1) (.pairL8 1 0 1) = .bits { value := 0x3C9, width := 13 } :=
  ⟨standardTable_wf, by decide +kernel, by decide +kernel⟩

/-- The greatest standard length and distance. -/
theorem witness_StandardSymbolsCanBeAssembled : (context 6 1).table = standardTable ∧ 2 ≤ 518 ∧ 1 ≤ 4096 ∧
    4096 ≤ 64 * 2 ^ trailingWidth (518 - 2) (context 6 1).dictBits := by decide +kernel

/-- A byte an earlier stream left, and one nothing wrote. -/
theorem witness_SourcesBeforeTheStreamAreFree : (between 5 3).phase = .idle ∧
    exec .reset (between 5 3) = .next (dropOutputs (resetRegisters (between 5 3))) ∧ 1 ≤ 4096 ∧
    cellRead (between 5 3).window 4096 = some 0x41 ∧ cellRead (between 5 3).window 0 = none :=
  ⟨rfl, rfl, by decide, by decide, by decide⟩

end Sys2Proof.Tests
end

/-! # The decoder and the encoder

What a decode depends on (R130), and that the decoder reads back what the encoder wrote (R95, R96, R103, R113). -/

namespace Sys2Proof

/-! ## The shapes of instructions

The 16 PAIR rows and the 64 DIST rows are families indexed by their code (R95), so that a proof about all 88
instructions has ten cases. -/

/-- Case analysis on an instruction by the shape of its encoding (R91 to R96, R38). -/
theorem Instr.casesShape {motive : Instr → Prop} (mode : ∀ b, motive (.mode b)) (dict : ∀ b, motive (.dict b))
    (lit : ∀ b, motive (.lit b)) (endMark : ∀ lc extra, motive (.endMark lc extra))
    (pair : ∀ lc < 16, ∀ extra dc low, motive (.ofPair lc extra dc low))
    (dist : ∀ dc < 64, ∀ low, motive (.ofDist dc low)) (isEnded : motive .isEnded)
    (processChunk : ∀ chunk, motive (.processChunk chunk)) (reset : motive .reset)
    (new : ∀ table, motive (.new table)) (i : Instr) : motive i := by
  have pairs : ∀ f ∈ pairConstructors, ∀ extra dc low, motive (f extra dc low) := by
    intro f hf extra dc low
    obtain ⟨lc, hlc, rfl⟩ := List.mem_iff_getElem.mp hf
    have h := pair lc hlc extra dc low
    rwa [Instr.ofPair, List.getD_eq_getElem _ _ hlc] at h
  have dists : ∀ f ∈ distConstructors, ∀ low, motive (f low) := by
    intro f hf low
    obtain ⟨dc, hdc, rfl⟩ := List.mem_iff_getElem.mp hf
    have h := dist dc hdc low
    rwa [Instr.ofDist, List.getD_eq_getElem _ _ hdc] at h
  cases i with
  | mode b => exact mode b
  | dict b => exact dict b
  | lit b => exact lit b
  | endMark lc extra => exact endMark lc extra
  | isEnded => exact isEnded
  | processChunk chunk => exact processChunk chunk
  | reset => exact reset
  | new table => exact new table
  | pairL0 | pairL1 | pairL2 | pairL3 | pairL4 | pairL5 | pairL6 | pairL7 | pairL8 | pairL9 | pairL10 | pairL11
  | pairL12 | pairL13 | pairL14 | pairL15 =>
    exact pairs _ (by simp only [pairConstructors, List.mem_cons, true_or, or_true]) _ _ _
  | _ => exact dists _ (by simp only [distConstructors, List.mem_cons, true_or, or_true]) _

theorem Instr.wf_ofPair (c : Context) {lc : Nat} (h : lc < 16) (extra dc low : Nat) :
    (Instr.ofPair lc extra dc low).wf c = pairFieldsOk c.table c.dictBits lc extra dc low := by
  interval_cases lc <;> rfl

theorem Instr.space_ofPair {lc : Nat} (h : lc < 16) (extra dc low : Nat) :
    (Instr.ofPair lc extra dc low).space = .symbol := by
  interval_cases lc <;> rfl

theorem encode_ofPair (c : Context) {lc : Nat} (h : lc < 16) (extra dc low : Nat) :
    encode c (.ofPair lc extra dc low) = .bits (encodePair c lc extra dc low) := by
  interval_cases lc <;> rfl

theorem Instr.wf_ofDist (c : Context) {dc : Nat} (h : dc < 64) (low : Nat) :
    (Instr.ofDist dc low).wf c = distanceFieldsOk c.table (trailingWidth c.lenVal c.dictBits) dc low := by
  interval_cases dc <;> rfl

theorem Instr.space_ofDist {dc : Nat} (h : dc < 64) (low : Nat) : (Instr.ofDist dc low).space = .distance := by
  interval_cases dc <;> rfl

theorem encode_ofDist (c : Context) {dc : Nat} (h : dc < 64) (low : Nat) :
    encode c (.ofDist dc low) = .bits (encodeDistance c.table (trailingWidth c.lenVal c.dictBits) dc low) := by
  interval_cases dc <;> rfl

/-! ## Fields of a window -/

theorem field_zero_lo (v n : Nat) : field v 0 n = v % 2 ^ n := by simp [field]

/-- A field above `u` bits is a field of what stands above them. -/
theorem field_div (v u lo n : Nat) : field (v / 2 ^ u) lo n = field v (u + lo) n := by
  rw [field, field, Nat.div_div_eq_div_mul, ← Nat.pow_add]

/-- A field lies inside the low bits it fits into. -/
theorem field_mod {lo n k : Nat} (h : lo + n ≤ k) (v : Nat) : field (v % 2 ^ k) lo n = field v lo n := by
  obtain ⟨d, rfl⟩ := Nat.exists_eq_add_of_le h
  rw [field, field, Nat.pow_add, Nat.pow_add, Nat.mul_assoc, Nat.mod_mul_right_div_self, Nat.mod_mul_right_mod]

/-- Windows that agree on their low `k` bits agree on every field inside them. -/
theorem field_congr {v w k lo n : Nat} (hvw : v % 2 ^ k = w % 2 ^ k) (h : lo + n ≤ k) :
    field v lo n = field w lo n := by
  rw [← field_mod h v, hvw, field_mod h w]

/-- The low bits of a field are the shorter field at the same place. -/
theorem field_low {v lo m n : Nat} (h : m ≤ n) : field v lo n % 2 ^ m = field v lo m := by
  rw [field, field, Nat.mod_mod_of_dvd _ (Nat.pow_dvd_pow 2 h)]

/-- What stands above `lo` bits is read there, cut to the width of the field. -/
theorem field_above {a lo : Nat} (ha : a < 2 ^ lo) (m n : Nat) : field (a + m * 2 ^ lo) lo n = m % 2 ^ n := by
  rw [field, Nat.add_mul_div_right _ _ (Nat.two_pow_pos lo), Nat.div_eq_of_lt ha, Nat.zero_add]

/-! ## A symbol depends on the bits it uses only (R130) -/

section wf

variable {T : CodeTable} (hT : T.wf = true)
include hT

/-- The length part is read from its own bits, although its index is always 8 bits wide (R103, R123). -/
theorem lengthPart_congr {win win' : Nat}
    (h : win' % 2 ^ (lengthPart T win).used = win % 2 ^ (lengthPart T win).used) :
    lengthPart T win' = lengthPart T win := by
  have hused : (lengthPart T win).used =
    1 + T.lenBitsAt (lengthPart T win).code + T.lenExtraBitsAt (lengthPart T win).code := rfl
  have hw := (T.wf_lenBits hT (lengthPart_code_lt hT win)).2
  have hcode : T.lenLookupAt (field win' 1 8) = T.lenLookupAt (field win 1 8) := by
    refine T.wf_lenPrefix hT (field_lt _ _ _) (field_lt _ _ _) ?_
    change field win' 1 8 % 2 ^ T.lenBitsAt (lengthPart T win).code =
      field win 1 8 % 2 ^ T.lenBitsAt (lengthPart T win).code
    rw [field_low hw, field_low hw]
    exact field_congr h (by omega)
  have hextra : field win' (1 + T.lenBitsAt (lengthPart T win).code) (T.lenExtraBitsAt (lengthPart T win).code) =
      field win (1 + T.lenBitsAt (lengthPart T win).code) (T.lenExtraBitsAt (lengthPart T win).code) :=
    field_congr h (by omega)
  change field win' (1 + T.lenBitsAt (T.lenLookupAt (field win 1 8)))
    (T.lenExtraBitsAt (T.lenLookupAt (field win 1 8))) = _ at hextra
  simp only [lengthPart, hcode, hextra]

/-- The distance part is read from the bits of its pair (R125). -/
theorem distancePart_congr {win win' d : Nat} {len : LengthPart}
    (h : win' % 2 ^ (distancePart T d win len).used = win % 2 ^ (distancePart T d win len).used) :
    distancePart T d win' len = distancePart T d win len := by
  have hused : (distancePart T d win len).used =
    len.used + (T.distBitsAt (distancePart T d win len).code + trailingWidth len.val d) := rfl
  have hw := (T.wf_distBits hT (distancePart_code_lt hT d win len)).2
  have hcode : T.distLookupAt (field win' len.used 8) = T.distLookupAt (field win len.used 8) := by
    refine T.wf_distPrefix hT (field_lt _ _ _) (field_lt _ _ _) ?_
    change field win' len.used 8 % 2 ^ T.distBitsAt (distancePart T d win len).code =
      field win len.used 8 % 2 ^ T.distBitsAt (distancePart T d win len).code
    rw [field_low hw, field_low hw]
    exact field_congr h (by omega)
  have hlow : field win' (len.used + T.distBitsAt (distancePart T d win len).code) (trailingWidth len.val d) =
      field win (len.used + T.distBitsAt (distancePart T d win len).code) (trailingWidth len.val d) :=
    field_congr h (by omega)
  change field win' (len.used + T.distBitsAt (T.distLookupAt (field win len.used 8))) _ = _ at hlow
  simp only [distancePart, hcode, hlow]
  rfl

end wf

theorem checkBits_of_le {α : Type} {nbits used : Nat} (h : used ≤ nbits) (a : α) :
    checkBits nbits used a = .sym a used := by simp [checkBits, h]

theorem mod_two_pow_congr {v w k m : Nat} (h : v % 2 ^ k = w % 2 ^ k) (hm : m ≤ k) : v % 2 ^ m = w % 2 ^ m := by
  rw [← Nat.mod_mod_of_dvd v (Nat.pow_dvd_pow 2 hm), h, Nat.mod_mod_of_dvd w (Nat.pow_dvd_pow 2 hm)]

theorem decodeWith_literal {α : Type} {f : Byte → α} {g : LengthPart → α} {k : LengthPart → DistancePart → α}
    {win : Nat} (h : field win 0 1 = 0) (nbits : Nat) (T : CodeTable) (d : Nat) :
    decodeWith f g k win nbits T d = checkBits nbits literalUsed (f (BitVec.ofNat 8 (field win 1 8))) := by
  simp only [decodeWith, h, if_true]

theorem decodeWith_end {α : Type} {f : Byte → α} {g : LengthPart → α} {k : LengthPart → DistancePart → α}
    {win : Nat} {T : CodeTable} (h : field win 0 1 ≠ 0) (he : (lengthPart T win).val = T.endValue) (nbits d : Nat) :
    decodeWith f g k win nbits T d = checkBits nbits (lengthPart T win).used (g (lengthPart T win)) := by
  simp only [decodeWith, h, if_false, he, if_true]

theorem decodeWith_pair {α : Type} {f : Byte → α} {g : LengthPart → α} {k : LengthPart → DistancePart → α}
    {win : Nat} {T : CodeTable} (h : field win 0 1 ≠ 0) (he : (lengthPart T win).val ≠ T.endValue) (nbits d : Nat) :
    decodeWith f g k win nbits T d =
      checkBits nbits (distancePart T d win (lengthPart T win)).used
        (k (lengthPart T win) (distancePart T d win (lengthPart T win))) := by
  simp only [decodeWith, h, if_false, he]

/-- R130: a window that agrees on the bits a decode used, with at least as many valid, decodes to the same answer. -/
theorem decodeWith_congr {α : Type} {f : Byte → α} {g : LengthPart → α} {k : LengthPart → DistancePart → α}
    {win win' nbits nbits' d used : Nat} {T : CodeTable} {a : α} (hT : T.wf = true)
    (h : decodeWith f g k win nbits T d = .sym a used) (hwin : win' % 2 ^ used = win % 2 ^ used)
    (hused : used ≤ nbits') : decodeWith f g k win' nbits' T d = .sym a used := by
  have hclass : field win' 0 1 = field win 0 1 := field_congr hwin (by have := (decodeWith_used h).1; omega)
  rcases decodeWith_cases f g k win nbits T d with ⟨hc, e⟩ | ⟨hc, hv, e⟩ | ⟨hc, hv, e⟩ <;> rw [e] at h <;>
    obtain ⟨rfl, rfl, _⟩ := checkBits_sym h
  · have hbyte : field win' 1 8 = field win 1 8 := field_congr hwin le_rfl
    rw [decodeWith_literal (hclass.trans hc), hbyte, checkBits_of_le hused]
  · have hlen := lengthPart_congr hT hwin
    rw [decodeWith_end (by rwa [hclass]) (by rwa [hlen]), hlen, checkBits_of_le hused]
  · have hlen : lengthPart T win' = lengthPart T win :=
      lengthPart_congr hT (mod_two_pow_congr hwin (by rw [distancePart_eq_result]; simp))
    have hdist := distancePart_congr hT hwin
    rw [decodeWith_pair (by rwa [hclass]) (by rwa [hlen]), hlen, hdist, checkBits_of_le hused]

/-! ## What the encoder wrote is read back -/

/-- A byte that agrees with a code's pattern on the code's width has that code's entry (R42 items 5 and 6, R103). -/
theorem lookup_of_codePattern {lookup bits : List Nat} {code b : Nat} (hl : lookup.length = 256)
    (hp : prefixConsistent lookup bits = true) (hmem : lookup.contains code = true) (hb : b < 256)
    (hagree : b % 2 ^ bits.getD code 0 = codePattern lookup code (bits.getD code 0)) : lookup.getD b 0 = code := by
  have hidx : lookup.idxOf code < lookup.length := List.idxOf_lt_length_of_mem (by simpa using hmem)
  have hentry : lookup.getD (lookup.idxOf code) 0 = code := by
    rw [List.getD_eq_getElem _ _ hidx, List.getElem_idxOf]
  have := (prefixConsistent_iff hl).mp hp (lookup.idxOf code) (by omega) b hb (by rw [hentry]; exact hagree)
  rw [this, hentry]

theorem codePattern_lt (lookup : List Nat) (code width : Nat) : codePattern lookup code width < 2 ^ width :=
  Nat.mod_lt _ (Nat.two_pow_pos width)

theorem lengthFieldsOk_iff {T : CodeTable} {lc extra : Nat} : lengthFieldsOk T lc extra = true ↔
    lc < 16 ∧ T.lenLookup.contains lc = true ∧ extra < 2 ^ T.lenExtraBitsAt lc := by
  simp [lengthFieldsOk, and_assoc]

theorem distanceFieldsOk_iff {T : CodeTable} {tw dc low : Nat} : distanceFieldsOk T tw dc low = true ↔
    dc < 64 ∧ T.distLookup.contains dc = true ∧ low < 2 ^ tw := by
  simp [distanceFieldsOk, and_assoc]

theorem pairFieldsOk_iff {T : CodeTable} {d lc extra dc low : Nat} : pairFieldsOk T d lc extra dc low = true ↔
    lengthFieldsOk T lc extra = true ∧ lengthValue T lc extra ≠ T.endValue ∧
      distanceFieldsOk T (trailingWidth (lengthValue T lc extra) d) dc low = true := by
  simp [pairFieldsOk, and_assoc]

theorem endFieldsOk_iff {T : CodeTable} {lc extra : Nat} : endFieldsOk T lc extra = true ↔
    lengthFieldsOk T lc extra = true ∧ lengthValue T lc extra = T.endValue := by
  simp [endFieldsOk]

/-- A code pattern of `w` bits with a field of `e` bits above it fits into `w + e` bits. -/
theorem add_mul_two_pow_lt {a b w e : Nat} (ha : a < 2 ^ w) (hb : b < 2 ^ e) : a + b * 2 ^ w < 2 ^ (w + e) := by
  have : (b + 1) * 2 ^ w ≤ 2 ^ e * 2 ^ w := Nat.mul_le_mul_right _ hb
  rw [Nat.pow_add, Nat.mul_comm (2 ^ w)]
  linarith

theorem encodeLength_lt {T : CodeTable} {lc extra : Nat} (h : extra < 2 ^ T.lenExtraBitsAt lc) :
    (encodeLength T lc extra).value < 2 ^ lengthUsed T lc := by
  refine add_mul_two_pow_lt ?_ h
  have := add_mul_two_pow_lt (w := 1) (by decide : 1 < 2 ^ 1) (codePattern_lt T.lenLookup lc (T.lenBitsAt lc))
  simpa using this

section wf

variable {T : CodeTable} (hT : T.wf = true)
include hT

/-- The class bit and the length part of an encoded symbol, whatever bits follow it (R95 fields 1 to 3, R96). -/
theorem lengthPart_encodeLength {lc extra : Nat} (h : lengthFieldsOk T lc extra = true) (above : Nat) :
    let win := (encodeLength T lc extra).value + above * 2 ^ lengthUsed T lc
    field win 0 1 = 1 ∧ lengthPart T win = Machine.lengthFields T lc extra := by
  obtain ⟨hlc, hmem, hextra⟩ := lengthFieldsOk_iff.mp h
  set w := T.lenBitsAt lc
  set p := codePattern T.lenLookup lc w
  set rest := extra + above * 2 ^ T.lenExtraBitsAt lc
  have hp : p < 2 ^ w := codePattern_lt _ _ _
  intro win
  have hwin : win = 1 + p * 2 + rest * 2 ^ (1 + w) := by
    simp only [win, encodeLength, lengthUsed, rest, p, w, Nat.pow_add (2) (1 + T.lenBitsAt lc)]
    ring
  have hwin1 : win = 1 + (p + rest * 2 ^ w) * 2 ^ 1 := by rw [hwin, Nat.pow_add]; ring
  have hclass : field win 0 1 = 1 := by rw [hwin1, field_zero_lo]; omega
  have hcode : T.lenLookupAt (field win 1 8) = lc := by
    refine lookup_of_codePattern (T.wf_counts hT).2.2.2.2.1 (T.wf_parts hT).2.2.1 hmem (field_lt _ _ _) ?_
    change field win 1 8 % 2 ^ w = p
    rw [field_low (T.wf_lenBits hT hlc).2, hwin1, field_above (by decide), Nat.add_mul_mod_self_right,
      Nat.mod_eq_of_lt hp]
  have hfield : field win (1 + w) (T.lenExtraBitsAt lc) = extra := by
    have hlow : 1 + p * 2 < 2 ^ (1 + w) := by
      have := add_mul_two_pow_lt (w := 1) (by decide : 1 < 2 ^ 1) hp
      simpa using this
    rw [hwin, field_above hlow, Nat.add_mul_mod_self_right, Nat.mod_eq_of_lt hextra]
  refine ⟨hclass, ?_⟩
  simp only [lengthPart, hcode, Machine.lengthFields]
  rw [show field win (1 + T.lenBitsAt lc) (T.lenExtraBitsAt lc) = extra from hfield]

/-- The distance code and the trailing field of an encoded distance part, whatever bits follow (R95 fields 4, 5). -/
theorem fields_encodeDistance {tw dc low : Nat} (h : distanceFieldsOk T tw dc low = true) (above : Nat) :
    let win := (encodeDistance T tw dc low).value + above * 2 ^ distanceUsed T dc tw
    T.distLookupAt (field win 0 8) = dc ∧ field win (T.distBitsAt dc) tw = low := by
  obtain ⟨hdc, hmem, hlow⟩ := distanceFieldsOk_iff.mp h
  set w := T.distBitsAt dc
  set p := codePattern T.distLookup dc w
  set rest := low + above * 2 ^ tw
  have hp : p < 2 ^ w := codePattern_lt _ _ _
  intro win
  have hwin : win = p + rest * 2 ^ w := by
    simp only [win, encodeDistance, distanceUsed, rest, p, w, Nat.pow_add]
    ring
  constructor
  · refine lookup_of_codePattern (T.wf_counts hT).2.2.2.2.2.2 (T.wf_parts hT).2.2.2 hmem (field_lt _ _ _) ?_
    change field win 0 8 % 2 ^ w = p
    rw [field_low (T.wf_distBits hT hdc).2, field_zero_lo, hwin, Nat.add_mul_mod_self_right, Nat.mod_eq_of_lt hp]
  · rw [hwin, field_above hp, Nat.add_mul_mod_self_right, Nat.mod_eq_of_lt hlow]

/-- The end marker's bits decode to its fields, whatever follows them (R96, R124). -/
theorem decodeWith_encodeLength {α : Type} {f : Byte → α} {g : LengthPart → α} {k : LengthPart → DistancePart → α}
    {lc extra : Nat} (h : endFieldsOk T lc extra = true) (above : Nat) {nbits : Nat}
    (hn : lengthUsed T lc ≤ nbits) (d : Nat) :
    decodeWith f g k ((encodeLength T lc extra).value + above * 2 ^ lengthUsed T lc) nbits T d =
      .sym (g (Machine.lengthFields T lc extra)) (lengthUsed T lc) := by
  obtain ⟨hlen, hend⟩ := endFieldsOk_iff.mp h
  obtain ⟨hclass, hpart⟩ := lengthPart_encodeLength hT hlen above
  rw [decodeWith_end (by omega) (by rw [hpart]; exact hend), hpart]
  exact checkBits_of_le hn _

/-- A pair's bits decode to its fields, whatever follows them (R95, R125). -/
theorem decodeWith_encodePair {α : Type} {f : Byte → α} {g : LengthPart → α} {k : LengthPart → DistancePart → α}
    {c : Context} (hc : c.table = T) {lc extra dc low : Nat}
    (h : pairFieldsOk T c.dictBits lc extra dc low = true) (above : Nat) {nbits : Nat}
    (hn : (encodePair c lc extra dc low).width ≤ nbits) :
    let len := Machine.lengthFields T lc extra
    decodeWith f g k ((encodePair c lc extra dc low).value + above * 2 ^ (encodePair c lc extra dc low).width) nbits T
        c.dictBits =
      .sym (k len (distanceResult T c.dictBits len dc low)) (encodePair c lc extra dc low).width := by
  subst hc
  obtain ⟨hlen, hend, hdist⟩ := pairFieldsOk_iff.mp h
  obtain ⟨_, _, hextra⟩ := lengthFieldsOk_iff.mp hlen
  set tw := trailingWidth (lengthValue c.table lc extra) c.dictBits with htw
  set tail := (encodeDistance c.table tw dc low).value + above * 2 ^ distanceUsed c.table dc tw with htail
  intro len
  have hwin : (encodePair c lc extra dc low).value + above * 2 ^ (encodePair c lc extra dc low).width =
      (encodeLength c.table lc extra).value + tail * 2 ^ lengthUsed c.table lc := by
    simp only [encodePair, Bits.append, encodeLength, encodeDistance, htail, Nat.pow_add, ← htw]
    ring
  obtain ⟨hclass, hpart⟩ := lengthPart_encodeLength hT hlen tail
  obtain ⟨hcode, hlow⟩ := fields_encodeDistance hT hdist above
  rw [hwin]
  set win := (encodeLength c.table lc extra).value + tail * 2 ^ lengthUsed c.table lc with hwindef
  have htaildiv : win / 2 ^ len.used = tail := by
    change win / 2 ^ lengthUsed c.table lc = tail
    rw [hwindef, Nat.add_mul_div_right _ _ (Nat.two_pow_pos _), Nat.div_eq_of_lt (encodeLength_lt hextra), Nat.zero_add]
  have hpart2 : distancePart c.table c.dictBits win len = distanceResult c.table c.dictBits len dc low := by
    have h0 := field_div win len.used 0 8
    have h1 := field_div win len.used (c.table.distBitsAt dc) (trailingWidth len.val c.dictBits)
    rw [htaildiv] at h0 h1
    simp only [distancePart]
    rw [show field win len.used 8 = field tail 0 8 from h0.symm, hcode, ← h1,
      show field tail (c.table.distBitsAt dc) (trailingWidth len.val c.dictBits) = low from hlow]
  rw [decodeWith_pair (by omega) (by rw [hpart]; exact hend), hpart, hpart2]
  exact checkBits_of_le hn _

end wf

/-- Every well-formed pair is decoded back, whatever bits follow it. -/
theorem decodeInstr_encodePair {c : Context} (hT : c.table.wf = true) {lc extra dc low : Nat}
    (h : pairFieldsOk c.table c.dictBits lc extra dc low = true) (above : Nat) {nbits : Nat}
    (hn : (encodePair c lc extra dc low).width ≤ nbits) :
    decodeInstr ((encodePair c lc extra dc low).value + above * 2 ^ (encodePair c lc extra dc low).width) nbits c.table
      c.dictBits = .sym (.ofPair lc extra dc low) (encodePair c lc extra dc low).width :=
  decodeWith_encodePair hT rfl h above hn

/-- Every well-formed end marker is decoded back, whatever bits follow it. -/
theorem decodeInstr_encodeLength {T : CodeTable} (hT : T.wf = true) {lc extra : Nat}
    (h : endFieldsOk T lc extra = true) (above : Nat) {nbits : Nat} (hn : lengthUsed T lc ≤ nbits) (d : Nat) :
    decodeInstr ((encodeLength T lc extra).value + above * 2 ^ lengthUsed T lc) nbits T d =
      .sym (.endMark lc extra) (lengthUsed T lc) :=
  decodeWith_encodeLength hT h above hn d

/-- Every literal is decoded back, whatever bits follow it (R94, R122). -/
theorem decodeInstr_encodeLiteral (b : Byte) (above : Nat) {nbits : Nat} (hn : literalUsed ≤ nbits) (T : CodeTable)
    (d : Nat) :
    decodeInstr ((encodeLiteral b).value + above * 2 ^ literalUsed) nbits T d = .sym (.lit b) literalUsed := by
  have hb := b.isLt
  have hclass : field ((encodeLiteral b).value + above * 2 ^ literalUsed) 0 1 = 0 := by
    simp only [field, encodeLiteral, literalUsed]
    omega
  have hbyte : field ((encodeLiteral b).value + above * 2 ^ literalUsed) 1 8 = b.toNat := by
    simp only [field, encodeLiteral, literalUsed]
    omega
  rw [decodeInstr, decodeWith_literal hclass, hbyte, BitVec.ofNat_toNat, BitVec.setWidth_eq, checkBits_of_le hn]

/-- Every well-formed distance sub-field is decoded back. -/
theorem decodeDistance_encodeDistance {c : Context} (hT : c.table.wf = true) {dc low : Nat}
    (h : distanceFieldsOk c.table (trailingWidth c.lenVal c.dictBits) dc low = true) :
    decodeDistance c (encodeDistance c.table (trailingWidth c.lenVal c.dictBits) dc low).value = .ofDist dc low := by
  have hfields := fields_encodeDistance hT h 0
  simp only [Nat.zero_mul, Nat.add_zero] at hfields
  obtain ⟨hcode, hlow⟩ := hfields
  simp only [decodeDistance, hcode, hlow]

/-- In the symbol space an encoding decodes to what `decodeInstr` reads from its bits. -/
theorem decodeIn_symbol {c : Context} {b : Bits} {i : Instr}
    (h : decodeInstr (b.value + 0 * 2 ^ b.width) b.width c.table c.dictBits = .sym i b.width) :
    decodeIn c .symbol (.bits b) = some i := by
  rw [Nat.zero_mul, Nat.add_zero] at h
  simp only [decodeIn, h]

/-- Settles O16, by the shape of the instruction. -/
theorem decodeOfEncodeIsTheInstruction : Obligations.DecodeOfEncodeIsTheInstruction := by
  intro c i hT hi
  induction i using Instr.casesShape with
  | mode b => rfl
  | dict b => rfl
  | lit b => exact decodeIn_symbol (decodeInstr_encodeLiteral b 0 le_rfl _ _)
  | endMark lc extra => exact decodeIn_symbol (decodeInstr_encodeLength hT hi 0 le_rfl _)
  | pair lc hlc extra dc low =>
    rw [Instr.wf_ofPair c hlc] at hi
    rw [Instr.space_ofPair hlc, encode_ofPair c hlc]
    exact decodeIn_symbol (decodeInstr_encodePair hT hi 0 le_rfl)
  | dist dc hdc low =>
    rw [Instr.wf_ofDist c hdc] at hi
    rw [Instr.space_ofDist hdc, encode_ofDist c hdc]
    exact congrArg some (decodeDistance_encodeDistance hT hi)
  | isEnded => rfl
  | processChunk chunk => rfl
  | reset => rfl
  | new table => rfl

end Sys2Proof

/-! # The accumulator

How many bytes a refill takes and what the accumulator holds afterwards (R153), as numbers. -/

namespace Sys2Proof.Machine

/-- The number a run of bytes stands for, the first byte lowest (R69, R70). -/
def bytesValue (l : List Byte) : Nat := Nat.ofDigits 256 (l.map BitVec.toNat)

@[simp] theorem bytesValue_nil : bytesValue [] = 0 := rfl

theorem bytesValue_cons (b : Byte) (l : List Byte) : bytesValue (b :: l) = b.toNat + 256 * bytesValue l := by
  simp [bytesValue, Nat.ofDigits_cons]

theorem bytesValue_append (l m : List Byte) :
    bytesValue (l ++ m) = bytesValue l + 2 ^ (8 * l.length) * bytesValue m := by
  simp [bytesValue, Nat.ofDigits_append, Nat.pow_mul]

/-- The number of bytes a refill takes (R153): while `nbits ≤ 56` and bytes are left. -/
def refillCount (s : State) : Nat := min (s.chunk.length - s.pos) ((64 - s.nbits.toNat) / 8)

/-- One byte taken stands above the valid bits (R153). -/
theorem take_byte_value {acc : BitVec 64} {n : Nat} (b : Byte) (h : acc.toNat < 2 ^ n) (hn : n ≤ 56) :
    (acc ||| (b.setWidth 64 <<< n)).toNat = acc.toNat + 2 ^ n * b.toNat := by
  have hb : b.toNat <<< n < 2 ^ 64 := by
    rw [Nat.shiftLeft_eq]
    calc b.toNat * 2 ^ n < 2 ^ 8 * 2 ^ n := Nat.mul_lt_mul_of_pos_right b.isLt (Nat.two_pow_pos n)
      _ = 2 ^ (8 + n) := (Nat.pow_add 2 8 n).symm
      _ ≤ 2 ^ 64 := Nat.pow_le_pow_right (by decide) (by omega)
  rw [BitVec.toNat_or, BitVec.toNat_shiftLeft, BitVec.toNat_setWidth, Nat.mod_eq_of_lt (by omega : b.toNat < 2 ^ 64),
    Nat.mod_eq_of_lt hb, Nat.or_comm, ← Nat.shiftLeft_add_eq_or_of_lt h, Nat.shiftLeft_eq, Nat.mul_comm, Nat.add_comm]

/-- The loop of R153 in closed form. -/
theorem refillFrom_eq : ∀ (bytes : List Byte) (r : RefillResult),
    r.nbits.toNat ≤ 64 → r.acc.toNat < 2 ^ r.nbits.toNat →
    ∀ n, n = min bytes.length ((64 - r.nbits.toNat) / 8) →
    (refillFrom bytes r).pos = r.pos + n ∧ (refillFrom bytes r).nbits.toNat = r.nbits.toNat + 8 * n ∧
      (refillFrom bytes r).acc.toNat = r.acc.toNat + 2 ^ r.nbits.toNat * bytesValue (bytes.take n)
  | [], r, _, _, n, hn => by
    obtain rfl : n = 0 := by simpa using hn
    simp [refillFrom]
  | b :: rest, r, h1, h2, n, hn => by
    simp only [refillFrom]
    split
    · next h =>
      have hnbits : (r.nbits + 8).toNat = r.nbits.toNat + 8 := by
        rw [BitVec.toNat_add]
        exact Nat.mod_eq_of_lt (by simp; omega)
      obtain ⟨m, rfl⟩ : ∃ m, n = m + 1 := ⟨n - 1, by simp only [List.length_cons] at hn; omega⟩
      have ih := refillFrom_eq rest
        { acc := r.acc ||| (b.setWidth 64 <<< r.nbits.toNat), nbits := r.nbits + 8, pos := r.pos + 1 }
        (by simp only [hnbits]; omega) (by simp only [hnbits]; exact take_byte_bound b h2) m
        (by simp only [hnbits]; simp only [List.length_cons] at hn; omega)
      simp only [hnbits, take_byte_value b h2 h] at ih
      obtain ⟨hpos, hnb, hacc⟩ := ih
      refine ⟨by omega, by omega, ?_⟩
      rw [hacc, List.take_succ_cons, bytesValue_cons, Nat.pow_add]
      ring
    · next h =>
      obtain rfl : n = 0 := by omega
      simp

section

variable {s : State} (h1 : s.nbits.toNat ≤ 64) (h2 : s.acc.toNat < 2 ^ s.nbits.toNat)
include h1 h2

theorem refill_pos_eq : (refill s).pos = s.pos + refillCount s :=
  (refillFrom_eq (s.chunk.drop s.pos) { acc := s.acc, nbits := s.nbits, pos := s.pos } h1 h2 _
    (by rw [List.length_drop]; rfl)).1

theorem refill_nbits_eq : (refill s).nbits.toNat = s.nbits.toNat + 8 * refillCount s :=
  (refillFrom_eq (s.chunk.drop s.pos) { acc := s.acc, nbits := s.nbits, pos := s.pos } h1 h2 _
    (by rw [List.length_drop]; rfl)).2.1

theorem refill_acc_eq : (refill s).acc.toNat =
    s.acc.toNat + 2 ^ s.nbits.toNat * bytesValue ((s.chunk.drop s.pos).take (refillCount s)) :=
  (refillFrom_eq (s.chunk.drop s.pos) { acc := s.acc, nbits := s.nbits, pos := s.pos } h1 h2 _
    (by rw [List.length_drop]; rfl)).2.2

/-- R30, R153: the bits taken in are counted as read, so the position of the next undecoded bit stays. -/
theorem refill_streamBitpos : (refill s).streamBitpos = s.streamBitpos := by
  rw [State.streamBitpos, refill_pos_eq h1 h2, refill_nbits_eq h1 h2, refill_totalIn, State.streamBitpos]
  omega

end

/-- Settles O36, from the closed form of the refill. -/
theorem refillTakesBytesAboveTheValidBits : Obligations.RefillTakesBytesAboveTheValidBits := by
  intro s h1 h2 h3
  refine ⟨refillCount s, refill_pos_eq h1 h2, ?_, refill_nbits_eq h1 h2, ?_, refill_acc_eq h1 h2, ?_,
    refill_streamBitpos h1 h2⟩
  · simp only [refillCount]; omega
  · rw [refill_nbits_eq h1 h2, refillCount]; omega
  · rw [refill_nbits_eq h1 h2, refillCount]; omega

end Sys2Proof.Machine

/-! # One iteration of the decode loop

What an iteration is, case by case (R176); what no part of the loop writes; what of the window it writes (R65, R178);
and the invariant inside the loop. -/

namespace Sys2Proof.Machine

/-! ## The cases of an iteration -/

/-- The symbol at the bits of the accumulator (R121). -/
def State.nextSymbol (s : State) : DecodeResult Symbol :=
  decode s.acc.toNat s.nbits.toNat s.table s.dictBits.toNat

/-- What the decoder returns: one of the three symbols, with the bits it uses. -/
theorem nextSymbol_cases {s : State} {sym : Symbol} {used : Nat} (h : s.nextSymbol = .sym sym used) :
    (∃ b, sym = .literal b ∧ used = literalUsed) ∨ sym = .endMark ∨
      ∃ dist, dist = distancePart s.table s.dictBits.toNat s.acc.toNat (lengthPart s.table s.acc.toNat) ∧
        sym = .pair dist.distance dist.length := by
  unfold State.nextSymbol decode at h
  rcases decodeWith_cases Symbol.literal (fun _ => .endMark) (fun _ dist => .pair dist.distance dist.length)
    s.acc.toNat s.nbits.toNat s.table s.dictBits.toNat with ⟨_, e⟩ | ⟨_, _, e⟩ | ⟨_, _, e⟩ <;> rw [e] at h <;>
    obtain ⟨hsym, hused, _⟩ := checkBits_sym h
  · exact .inl ⟨_, hsym.symm, hused.symm⟩
  · exact .inr (.inl hsym.symm)
  · exact .inr (.inr ⟨_, rfl, hsym.symm⟩)

theorem nextSymbol_used {s : State} {sym : Symbol} {used : Nat} (h : s.nextSymbol = .sym sym used) :
    used ≤ s.nbits.toNat := by
  unfold State.nextSymbol decode at h
  exact (decodeWith_used h).2

theorem nextSymbol_literal_used {s : State} {b : Byte} {used : Nat} (h : s.nextSymbol = .sym (.literal b) used) :
    used = literalUsed := by
  rcases nextSymbol_cases h with ⟨_, _, hused⟩ | hsym | ⟨_, _, hsym⟩
  · exact hused
  · cases hsym
  · cases hsym

/-- The ranges of R129 that the copy engine relies on. -/
theorem nextSymbol_pair {s : State} {distance length used : Nat} (hT : s.table.wf = true)
    (h : s.nextSymbol = .sym (.pair distance length) used) : 1 ≤ distance ∧ 2 ≤ length ∧ length ≤ 65535 := by
  rcases nextSymbol_cases h with ⟨_, hsym, _⟩ | hsym | ⟨dist, hdist, hsym⟩
  · cases hsym
  · cases hsym
  · obtain ⟨rfl, rfl⟩ := Symbol.pair.inj hsym
    have hval := lengthPart_val_le hT s.acc.toNat
    rw [hdist, distancePart_eq_result, distanceResult_distance, distanceResult_length]
    exact ⟨pairDistance_pos _ _ _, by omega, by omega⟩

theorem iteration_full {s : State} (h : s.writeOffs = 8192) : iteration s = stopHalfFull (refill s) := by
  simp only [iteration, refill_full, full_true h, if_true]

section

variable {s : State} (h : s.writeOffs ≠ 8192)
include h

theorem iteration_needBits {n : Nat} (hd : (refill s).nextSymbol = .needBits n) :
    iteration s = stopNeedBits (refill s) := by
  unfold State.nextSymbol at hd
  simp only [iteration, refill_full, full_false h, hd, Bool.false_eq_true, if_false]

theorem iteration_literal {b : Byte} {used : Nat} (hd : (refill s).nextSymbol = .sym (.literal b) used) :
    iteration s = literalEffect b (refill s) := by
  unfold State.nextSymbol at hd
  simp only [iteration, refill_full, full_false h, hd, Bool.false_eq_true, if_false]

theorem iteration_pair {distance length used : Nat}
    (hd : (refill s).nextSymbol = .sym (.pair distance length) used) :
    iteration s = pairEffect distance length used (refill s) := by
  unfold State.nextSymbol at hd
  simp only [iteration, refill_full, full_false h, hd, Bool.false_eq_true, if_false]

theorem iteration_end {used : Nat} (hd : (refill s).nextSymbol = .sym .endMark used) :
    iteration s = endEffect used (refill s) := by
  unfold State.nextSymbol at hd
  simp only [iteration, refill_full, full_false h, hd, Bool.false_eq_true, if_false]

end

/-- What one iteration can do (R176). -/
theorem iteration_cases {motive : State → Prop} (s : State)
    (full : s.writeOffs = 8192 → motive (stopHalfFull (refill s)))
    (needBits : s.writeOffs ≠ 8192 → ∀ n, (refill s).nextSymbol = .needBits n → motive (stopNeedBits (refill s)))
    (literal : s.writeOffs ≠ 8192 → ∀ b used, (refill s).nextSymbol = .sym (.literal b) used →
      motive (literalEffect b (refill s)))
    (pair : s.writeOffs ≠ 8192 → ∀ distance length used, (refill s).nextSymbol = .sym (.pair distance length) used →
      motive (pairEffect distance length used (refill s)))
    (ended : s.writeOffs ≠ 8192 → ∀ used, (refill s).nextSymbol = .sym .endMark used →
      motive (endEffect used (refill s))) : motive (iteration s) := by
  by_cases h : s.writeOffs = 8192
  · rw [iteration_full h]
    exact full h
  · cases hd : (refill s).nextSymbol with
    | needBits n => rw [iteration_needBits h hd]; exact needBits h n hd
    | sym sym used =>
      cases sym with
      | literal b => rw [iteration_literal h hd]; exact literal h b used hd
      | pair distance length => rw [iteration_pair h hd]; exact pair h distance length used hd
      | endMark => rw [iteration_end h hd]; exact ended h used hd

theorem pairEffect_far {distance : Nat} (h : distance > 4096) (length used : Nat) (s : State) :
    pairEffect distance length used s = raiseFatal .distanceRange s := if_pos h

theorem pairEffect_near {distance : Nat} (h : distance ≤ 4096) (length used : Nat) (s : State) :
    pairEffect distance length used s = copyRun (startCopy distance length (consumeBits used s)) :=
  if_neg (by omega)

theorem decodeLoop_of_stopped {s : State} (h : s.reason ≠ .none) (fuel : Nat) : decodeLoop fuel s = s := by
  cases fuel with
  | zero => rfl
  | succ fuel => simp only [decodeLoop, h, if_false]

theorem decodeLoop_of_going {s : State} (h : s.reason = .none) (fuel : Nat) :
    decodeLoop (fuel + 1) s = decodeLoop fuel (iteration s) := by simp only [decodeLoop, h, if_true]

/-! ## What no part of the loop writes -/

/-- The fields that no symbol and no part of the loop writes, and the two sticky flags, which none of them clears
(R35, R36). -/
structure LoopFrame (s t : State) : Prop where
  offsXor : t.offsXor = s.offsXor := by rfl
  dictBits : t.dictBits = s.dictBits := by rfl
  needMode : t.needMode = s.needMode := by rfl
  needDict : t.needDict = s.needDict := by rfl
  totalIn : t.totalIn = s.totalIn := by rfl
  table : t.table = s.table := by rfl
  draw : t.draw = s.draw := by rfl
  port : t.port = s.port := by rfl
  response : t.response = s.response := by rfl
  answer : t.answer = s.answer := by rfl
  phase : t.phase = s.phase := by rfl
  chunk : t.chunk = s.chunk := by rfl
  start : t.start = s.start := by rfl
  fatal_kept : s.fatal = true → t.fatal = true := by exact id
  ended_kept : s.ended = true → t.ended = true := by exact id

namespace LoopFrame

theorem refl (s : State) : LoopFrame s s := {}

theorem trans {s t u : State} (h : LoopFrame s t) (k : LoopFrame t u) : LoopFrame s u where
  offsXor := k.offsXor.trans h.offsXor
  dictBits := k.dictBits.trans h.dictBits
  needMode := k.needMode.trans h.needMode
  needDict := k.needDict.trans h.needDict
  totalIn := k.totalIn.trans h.totalIn
  table := k.table.trans h.table
  draw := k.draw.trans h.draw
  port := k.port.trans h.port
  response := k.response.trans h.response
  answer := k.answer.trans h.answer
  phase := k.phase.trans h.phase
  chunk := k.chunk.trans h.chunk
  start := k.start.trans h.start
  fatal_kept := k.fatal_kept ∘ h.fatal_kept
  ended_kept := k.ended_kept ∘ h.ended_kept

theorem stopNeedBits (s : State) : LoopFrame s (stopNeedBits s) := {}
theorem stopHalfFull (s : State) : LoopFrame s (stopHalfFull s) := {}
theorem stopEnded (s : State) : LoopFrame s (stopEnded s) := { ended_kept := fun _ => rfl }
theorem raiseFatal (code : FaultCode) (s : State) : LoopFrame s (raiseFatal code s) := { fatal_kept := fun _ => rfl }
theorem refill (s : State) : LoopFrame s (refill s) := {}
theorem consumeBits (used : Nat) (s : State) : LoopFrame s (consumeBits used s) := {}
theorem startCopy (distance length : Nat) (s : State) : LoopFrame s (startCopy distance length s) := {}
theorem moveBytes (n : Nat) (s : State) : LoopFrame s (moveBytes n s) := {}
theorem literalEffect (b : Byte) (s : State) : LoopFrame s (literalEffect b s) := {}

theorem copyRun (s : State) : LoopFrame s (copyRun s) := by
  simp only [Machine.copyRun]
  split
  · exact moveBytes _ s
  · exact (moveBytes _ s).trans (stopHalfFull _)

theorem pairEffect (distance length used : Nat) (s : State) : LoopFrame s (pairEffect distance length used s) := by
  by_cases h : distance > 4096
  · rw [pairEffect_far h]
    exact raiseFatal _ s
  · rw [pairEffect_near (by omega)]
    exact ((consumeBits used s).trans (startCopy _ _ _)).trans (copyRun _)

theorem endEffect (used : Nat) (s : State) : LoopFrame s (endEffect used s) :=
  (consumeBits used s).trans (stopEnded _)

theorem applySymbol {effect : State → State} {s : State} (h : LoopFrame s (effect s)) (used : Nat) :
    LoopFrame s (applySymbol used effect s) := by
  rcases applySymbol_cases used effect s with ⟨_, e⟩ | ⟨_, _, e⟩ | ⟨_, _, e⟩ <;> rw [e]
  · exact stopHalfFull s
  · exact stopNeedBits s
  · exact h

theorem iteration (s : State) : LoopFrame s (iteration s) :=
  iteration_cases s (fun _ => (refill s).trans (stopHalfFull _)) (fun _ _ _ => (refill s).trans (stopNeedBits _))
    (fun _ _ _ _ => (refill s).trans (literalEffect _ _)) (fun _ _ _ _ _ => (refill s).trans (pairEffect _ _ _ _))
    (fun _ _ _ => (refill s).trans (endEffect _ _))

theorem decodeLoop : ∀ (fuel : Nat) (s : State), LoopFrame s (decodeLoop fuel s)
  | 0, s => refl s
  | fuel + 1, s => by
    by_cases h : s.reason = .none
    · rw [decodeLoop_of_going h]
      exact (iteration s).trans (decodeLoop fuel _)
    · rw [decodeLoop_of_stopped h]
      exact refl s

end LoopFrame

/-! ## What is written to the window -/

/-- From `s` to `t` the write cursor moved up, the output position with it (R31), and no byte outside the coordinates
it passed over was written (R65). -/
structure Wrote (s t : State) : Prop where
  cursor_le : s.writeOffs.toNat ≤ t.writeOffs.toNat
  count : t.totalOut = s.totalOut + (t.writeOffs.toNat - s.writeOffs.toNat)
  frame : ∀ l : BitVec 13, l.toNat < s.writeOffs.toNat ∨ t.writeOffs.toNat ≤ l.toNat → winRead t l = winRead s l

theorem writeOffs_moveBytes {s : State} {n : Nat} (h : s.writeOffs.toNat + n ≤ 8192) :
    (moveBytes n s).writeOffs.toNat = s.writeOffs.toNat + n := by
  rw [moveBytes_writeOffs, BitVec.toNat_add, BitVec.toNat_ofNat]
  omega

theorem writeOffs_literalEffect {s : State} (h : s.writeOffs.toNat < 8192) (b : Byte) :
    (literalEffect b s).writeOffs.toNat = s.writeOffs.toNat + 1 := by
  rw [literalEffect_writeOffs, BitVec.toNat_add]
  exact Nat.mod_eq_of_lt (by simp; omega)

theorem writeOffs_lt {s : State} (h : s.writeOffs.toNat ≤ 8192) (hw : s.writeOffs ≠ 8192) :
    s.writeOffs.toNat < 8192 := by
  have : s.writeOffs.toNat ≠ 8192 := fun e => hw (BitVec.eq_of_toNat_eq e)
  omega

theorem winRead_literalEffect_frame {b : Byte} {s : State} {l : BitVec 13} (h : l ≠ s.writeOffs.setWidth 13) :
    winRead (literalEffect b s) l = winRead s l := by
  refine memRead_memWrite_other b s fun hp => h ?_
  have hp : physical s l = physical s (s.writeOffs.setWidth 13) := hp
  rw [← physical_physical s l, hp, physical_physical]

namespace Wrote

theorem refl (s : State) : Wrote s s := ⟨le_rfl, by omega, fun _ _ => rfl⟩

theorem trans {s t u : State} (h : Wrote s t) (k : Wrote t u) : Wrote s u where
  cursor_le := h.cursor_le.trans k.cursor_le
  count := by have := h.count; have := k.count; have := h.cursor_le; have := k.cursor_le; omega
  frame l hl := by
    have := h.cursor_le
    have := k.cursor_le
    rw [k.frame l (by omega), h.frame l (by omega)]

/-- Nothing is written where cursor, output position, selector and window stay. -/
theorem of_unwritten {s t : State} (hw : t.writeOffs = s.writeOffs) (ho : t.totalOut = s.totalOut)
    (hm : ∀ l, winRead t l = winRead s l) : Wrote s t :=
  ⟨by rw [hw], by rw [hw, ho]; omega, fun l _ => hm l⟩

theorem refill (s : State) : Wrote s (refill s) := of_unwritten rfl rfl fun _ => rfl
theorem stopNeedBits (s : State) : Wrote s (stopNeedBits s) := of_unwritten rfl rfl fun _ => rfl
theorem stopHalfFull (s : State) : Wrote s (stopHalfFull s) := of_unwritten rfl rfl fun _ => rfl
theorem raiseFatal (code : FaultCode) (s : State) : Wrote s (raiseFatal code s) := of_unwritten rfl rfl fun _ => rfl
theorem endEffect (used : Nat) (s : State) : Wrote s (endEffect used s) := of_unwritten rfl rfl fun _ => rfl

theorem startCopy (distance length used : Nat) (s : State) :
    Wrote s (startCopy distance length (consumeBits used s)) := of_unwritten rfl rfl fun _ => rfl

theorem literalEffect (b : Byte) {s : State} (h : s.writeOffs.toNat < 8192) : Wrote s (literalEffect b s) where
  cursor_le := by rw [writeOffs_literalEffect h]; omega
  count := by rw [writeOffs_literalEffect h, literalEffect_totalOut]; omega
  frame l hl := by
    rw [writeOffs_literalEffect h] at hl
    refine winRead_literalEffect_frame fun e => ?_
    have : l.toNat = s.writeOffs.toNat := by
      rw [e, BitVec.toNat_setWidth]
      exact Nat.mod_eq_of_lt (by omega)
    omega

theorem moveBytes {n : Nat} {s : State} (h : s.writeOffs.toNat + n ≤ 8192) : Wrote s (moveBytes n s) where
  cursor_le := by rw [writeOffs_moveBytes h]; omega
  count := by rw [writeOffs_moveBytes h, moveBytes_totalOut]; omega
  frame l hl := by
    rw [writeOffs_moveBytes h] at hl
    exact winRead_moveBytes_frame hl

theorem copyRun {s : State} (h : s.writeOffs.toNat ≤ 8192) : Wrote s (copyRun s) := by
  rcases copyRun_cases h with ⟨hn, e, _⟩ | ⟨_, e, _⟩ <;> rw [e]
  · exact moveBytes (by omega)
  · exact (moveBytes (by omega)).trans (stopHalfFull _)

theorem pairEffect (distance length used : Nat) {s : State} (h : s.writeOffs.toNat ≤ 8192) :
    Wrote s (pairEffect distance length used s) := by
  by_cases hd : distance > 4096
  · rw [pairEffect_far hd]
    exact raiseFatal _ s
  · rw [pairEffect_near (by omega)]
    exact (startCopy distance length used s).trans (copyRun h)

theorem iteration {s : State} (h : s.writeOffs.toNat ≤ 8192) : Wrote s (iteration s) :=
  iteration_cases s (fun _ => (refill s).trans (stopHalfFull _)) (fun _ _ _ => (refill s).trans (stopNeedBits _))
    (fun hw _ _ _ => (refill s).trans (literalEffect _ (writeOffs_lt h hw)))
    (fun _ _ _ _ _ => (refill s).trans (pairEffect _ _ _ h)) (fun _ _ _ => (refill s).trans (endEffect _ _))

end Wrote

/-! ## The invariant inside the loop -/

/-- The invariant inside the loop (`State.Inv` in the phase `loop`), whatever the field `phase` holds: the big-step
PROCESS_CHUNK of R174 leaves that field alone. -/
structure State.LoopOk (s : State) : Prop where
  table_wf : s.table.wf = true
  window_wf : Memory.wf s.window = true
  bits_ok : s.nbits.toNat ≤ 8 * (s.totalIn + s.pos)
  position_ok : s.writeOffs.toNat ≤ 4096 + s.totalOut
  running : s.reason = .none → s.Running
  stopped : s.reason ≠ .none → s.Stopped
  start_ok : 4096 ≤ s.start.toNat ∧ s.start.toNat ≤ 8191 ∧ s.start.toNat ≤ s.writeOffs.toNat
  pos_le : s.pos ≤ s.chunk.length

/-- In the phase `loop` it is the machine's invariant. -/
theorem State.LoopOk.inv {s : State} (h : s.LoopOk) (hp : s.phase = .loop) : s.Inv where
  table_wf := h.table_wf
  window_wf := h.window_wf
  bits_ok := by simpa [hp] using h.bits_ok
  position_ok := h.position_ok
  phase_ok := by
    obtain ⟨h1, h2, h3⟩ := h.start_ok
    simpa only [State.PhaseOk, hp] using ⟨h.running, h.stopped, h1, h2, h3, h.pos_le⟩

theorem State.Inv.loopOk {s : State} (h : s.Inv) (hp : s.phase = .loop) : s.LoopOk := by
  have hphase := h.phase_ok
  simp only [State.PhaseOk, hp] at hphase
  obtain ⟨hr, hs, h1, h2, h3, hpos⟩ := hphase
  exact ⟨h.table_wf, h.window_wf, by simpa [hp] using h.bits_ok, h.position_ok, hr, hs, ⟨h1, h2, h3⟩, hpos⟩

theorem State.LoopOk.cursor {s : State} (h : s.LoopOk) : 4096 ≤ s.writeOffs.toNat ∧ s.writeOffs.toNat ≤ 8192 := by
  by_cases hr : s.reason = .none
  · exact (h.running hr).cursor
  · exact (h.stopped hr).boundary.cursor

/-- The loop has not stopped; unlike in `State.Running`, a copy may be pending. -/
structure State.Going (s : State) : Prop where
  table_wf : s.table.wf = true
  window_wf : Memory.wf s.window = true
  bits_ok : s.nbits.toNat ≤ 8 * (s.totalIn + s.pos)
  position_ok : s.writeOffs.toNat ≤ 4096 + s.totalOut
  start_ok : 4096 ≤ s.start.toNat ∧ s.start.toNat ≤ 8191 ∧ s.start.toNat ≤ s.writeOffs.toNat
  pos_le : s.pos ≤ s.chunk.length
  selector : s.offsXor = 0 ∨ s.offsXor = 4096
  cursor : 4096 ≤ s.writeOffs.toNat ∧ s.writeOffs.toNat ≤ 8192
  bits : s.nbits.toNat ≤ 64 ∧ s.acc.toNat < 2 ^ s.nbits.toNat
  not_pending : s.swapPending = false
  header_done : s.needMode = false ∧ s.needDict = false
  not_ended : s.ended = false
  not_fatal : s.fatal = false ∧ s.faultCode = .none
  reason_none : s.reason = .none

theorem State.LoopOk.going {s : State} (h : s.LoopOk) (hr : s.reason = .none) : s.Going :=
  { h, h.running hr with reason_none := hr }

theorem State.LoopOk.no_copy {s : State} (h : s.LoopOk) (hr : s.reason = .none) : s.remainingLen = 0 :=
  (h.running hr).no_copy

namespace State.Going

variable {s : State} (h : s.Going)
include h

theorem loopOk (h0 : s.remainingLen = 0) : s.LoopOk :=
  { h with running := fun _ => { h with no_copy := h0 }, stopped := fun hr => absurd h.reason_none hr }

theorem refill : (refill s).Going := by
  obtain ⟨hn, hacc, hpos, hle, hbits, _⟩ := refill_spec h.bits.1 h.bits.2 h.pos_le
  have htaken := h.bits_ok
  exact { h with
    bits_ok := by rw [refill_totalIn]; omega
    pos_le := hle
    bits := ⟨hn, hacc⟩ }

theorem consumeBits {used : Nat} (hu : used ≤ s.nbits.toNat) : (consumeBits used s).Going := by
  obtain ⟨hn, hacc⟩ := consumeBits_spec h.bits.1 h.bits.2 hu
  have htaken := h.bits_ok
  have hle := h.bits.1
  exact { h with
    bits_ok := by rw [hn, consumeBits_totalIn, consumeBits_pos]; omega
    bits := ⟨by omega, hacc⟩ }

theorem startCopy (distance length : Nat) : (startCopy distance length s).Going := { h with }

theorem literalEffect (b : Byte) (hw : s.writeOffs.toNat < 8192) (hu : literalUsed ≤ s.nbits.toNat) :
    (literalEffect b s).Going := by
  have hcur := writeOffs_literalEffect hw b
  obtain ⟨h1, h2⟩ := h.cursor
  obtain ⟨h3, h4, h5⟩ := h.start_ok
  have hpos := h.position_ok
  exact { h.consumeBits hu with
    window_wf := winWrite_wf h.window_wf
    position_ok := by rw [hcur, literalEffect_totalOut]; omega
    start_ok := ⟨h3, h4, by rw [hcur]; exact Nat.le_succ_of_le h5⟩
    cursor := by omega }

theorem moveBytes {n : Nat} (hn : s.writeOffs.toNat + n ≤ 8192) : (moveBytes n s).Going := by
  have hcur := writeOffs_moveBytes hn
  obtain ⟨h1, h2⟩ := h.cursor
  obtain ⟨h3, h4, h5⟩ := h.start_ok
  have hpos := h.position_ok
  exact { h with
    window_wf := copyBytes_wf s.offsXor.isLt h.window_wf hn
    position_ok := by rw [hcur, moveBytes_totalOut]; omega
    start_ok := ⟨h3, h4, by rw [hcur]; exact Nat.le_add_right_of_le h5⟩
    cursor := by omega }

/-- Where the loop stops, only the flags and the reason change. -/
theorem loopOk_of_stopped {t : State}
    (ht : t = { s with
      swapPending := t.swapPending, ended := t.ended, fatal := t.fatal, faultCode := t.faultCode, reason := t.reason })
    (hr : t.reason ≠ .none) (hs : t.Stopped) : t.LoopOk where
  table_wf := by rw [ht]; exact h.table_wf
  window_wf := by rw [ht]; exact h.window_wf
  bits_ok := by rw [ht]; exact h.bits_ok
  position_ok := by rw [ht]; exact h.position_ok
  running e := absurd e hr
  stopped _ := hs
  start_ok := by rw [ht]; exact h.start_ok
  pos_le := by rw [ht]; exact h.pos_le

/-- Room in the half and no copy pending: the ten items of R37 hold. -/
theorem boundary (hw : s.writeOffs ≠ 8192) (h0 : s.remainingLen = 0) : s.Boundary where
  selector := h.selector
  cursor := h.cursor
  full_iff_pending := ⟨fun e => absurd e hw, fun e => absurd e (by simp [h.not_pending])⟩
  bits := h.bits
  copy hn := absurd h0 hn
  header_equal := by rw [h.header_done.1, h.header_done.2]
  header_reset hn := absurd hn (by simp [h.header_done.1])
  ended_quiet he := absurd he (by simp [h.not_ended])
  fatal_iff_code := by simp [h.not_fatal.1, h.not_fatal.2]
  not_both hb := absurd hb.1 (by simp [h.not_ended])

theorem stopNeedBits (hw : s.writeOffs ≠ 8192) (h0 : s.remainingLen = 0) : (stopNeedBits s).LoopOk :=
  h.loopOk_of_stopped rfl (by simp)
    { boundary := { h.boundary hw h0 with }
      header_done := h.header_done.1
      ended_iff := by simp [h.not_ended]
      fatal_iff := by simp [h.not_fatal.1]
      pending_iff := by simp [h.not_pending] }

/-- The half is full; what is left of a copy has its source in the half that was just filled (R37 item 5). -/
theorem stopHalfFull (hw : s.writeOffs = 8192) (hc : s.remainingLen ≠ 0 → 4096 ≤ s.currentOffs.toNat) :
    (stopHalfFull s).LoopOk :=
  h.loopOk_of_stopped rfl (by simp)
    { boundary :=
        { h with
          full_iff_pending := by simp [hw]
          copy := fun hn => ⟨rfl, hw, hc hn⟩
          header_equal := by simp [h.header_done]
          header_reset := fun hn => absurd hn (by simp [h.header_done.1])
          ended_quiet := fun he => absurd he (by simp [h.not_ended])
          fatal_iff_code := by simp [h.not_fatal]
          not_both := fun hb => absurd hb.1 (by simp [h.not_ended]) }
      header_done := h.header_done.1
      ended_iff := by simp [h.not_ended]
      fatal_iff := by simp [h.not_fatal.1]
      pending_iff := by simp }

theorem stopEnded (hw : s.writeOffs ≠ 8192) (h0 : s.remainingLen = 0) : (stopEnded s).LoopOk :=
  h.loopOk_of_stopped rfl (by simp)
    { boundary :=
        { h.boundary hw h0 with
          header_reset := fun hn => absurd hn (by simp [h.header_done.1])
          ended_quiet := fun _ => ⟨h.not_pending, h0, h.header_done.1⟩
          not_both := fun hb => absurd hb.2 (by simp [h.not_fatal.1]) }
      header_done := h.header_done.1
      ended_iff := by simp
      fatal_iff := by simp [h.not_fatal.1]
      pending_iff := by simp [h.not_pending] }

theorem raiseFatal (hw : s.writeOffs ≠ 8192) (h0 : s.remainingLen = 0) :
    (raiseFatal .distanceRange s).LoopOk :=
  h.loopOk_of_stopped rfl (by simp)
    { boundary :=
        { h.boundary hw h0 with
          fatal_iff_code := by simp
          not_both := fun hb => absurd hb.1 (by simp [h.not_ended]) }
      header_done := h.header_done.1
      ended_iff := by simp [h.not_ended]
      fatal_iff := by simp
      pending_iff := by simp [h.not_pending] }

/-- The copy engine, for a source 1 to 4096 bytes behind the cursor (R152, R155). -/
theorem copyRun (hsrc : s.currentOffs.toNat < s.writeOffs.toNat)
    (hdist : s.writeOffs.toNat ≤ s.currentOffs.toNat + 4096) : (copyRun s).LoopOk := by
  obtain ⟨_, hle⟩ := h.cursor
  rcases copyRun_cases hle with ⟨hn, e, h0⟩ | ⟨_, e, hw, _⟩
  · rw [e] at h0 ⊢
    exact (h.moveBytes (by omega)).loopOk h0
  · rw [e] at hw ⊢
    refine (h.moveBytes (by omega)).stopHalfFull hw fun _ => ?_
    rw [moveBytes_currentOffs, BitVec.toNat_add, BitVec.toNat_ofNat]
    omega

/-- A pair that has room for at least one byte (R155, R156). -/
theorem pairEffect {distance used : Nat} (hw : s.writeOffs ≠ 8192) (h0 : s.remainingLen = 0)
    (hu : used ≤ s.nbits.toNat) (hd : 1 ≤ distance) (length : Nat) :
    (pairEffect distance length used s).LoopOk := by
  by_cases hfar : distance > 4096
  · rw [pairEffect_far hfar]
    exact h.raiseFatal hw h0
  · rw [pairEffect_near (by omega)]
    have hlt := writeOffs_lt h.cursor.2 hw
    have hge := h.cursor.1
    have hsrc : (Machine.startCopy distance length (Machine.consumeBits used s)).currentOffs.toNat =
        s.writeOffs.toNat - distance := by
      rw [startCopy_currentOffs, consumeBits_writeOffs, BitVec.toNat_ofNat]
      omega
    exact ((h.consumeBits hu).startCopy distance length).copyRun
      (by rw [hsrc, startCopy_writeOffs, consumeBits_writeOffs]; omega)
      (by rw [hsrc, startCopy_writeOffs, consumeBits_writeOffs]; omega)

theorem endEffect {used : Nat} (hw : s.writeOffs ≠ 8192) (h0 : s.remainingLen = 0) (hu : used ≤ s.nbits.toNat) :
    (endEffect used s).LoopOk := (h.consumeBits hu).stopEnded hw h0

end State.Going

/-- An iteration of the loop keeps its invariant (R176). -/
theorem State.LoopOk.iteration {s : State} (h : s.LoopOk) (hr : s.reason = .none) : (iteration s).LoopOk := by
  have hgo := (h.going hr).refill
  have h0 := h.no_copy hr
  have hle := h.cursor.2
  refine iteration_cases s (fun hw => hgo.stopHalfFull hw fun hn => absurd h0 hn)
    (fun hw _ _ => hgo.stopNeedBits hw h0) (fun hw b used hd => ?_) (fun hw distance length used hd => ?_)
    (fun hw used hd => hgo.endEffect hw h0 (nextSymbol_used hd))
  · have hu := nextSymbol_used hd
    rw [nextSymbol_literal_used hd] at hu
    exact (hgo.literalEffect b (writeOffs_lt hle hw) hu).loopOk h0
  · exact hgo.pairEffect hw h0 (nextSymbol_used hd) (nextSymbol_pair hgo.table_wf hd).1 length

/-- An iteration that goes on writes at least one byte (R183). -/
theorem iteration_progress {s : State} (h : s.LoopOk) (hgoes : (iteration s).reason = .none) :
    s.writeOffs.toNat < (iteration s).writeOffs.toNat := by
  have hle := h.cursor.2
  revert hgoes
  refine iteration_cases (motive := fun t => t.reason = .none → s.writeOffs.toNat < t.writeOffs.toNat) s
    (fun _ e => absurd e (by simp)) (fun _ _ _ e => absurd e (by simp))
    (fun hw b used _ _ => ?_) (fun hw distance length used hd hgoes => ?_) (fun _ _ _ e => absurd e (by simp))
  · rw [writeOffs_literalEffect (s := refill s) (writeOffs_lt hle hw)]
    exact Nat.lt_succ_self _
  · obtain ⟨_, hlen, hmax⟩ := nextSymbol_pair (s := refill s) h.table_wf hd
    by_cases hfar : distance > 4096
    · rw [pairEffect_far hfar] at hgoes
      exact absurd hgoes (by simp)
    · rw [pairEffect_near (by omega)] at hgoes ⊢
      set u := startCopy distance length (consumeBits used (refill s))
      have hrem : u.remainingLen.toNat = length := Nat.mod_eq_of_lt (by omega)
      rcases copyRun_cases (s := u) hle with ⟨hn, e, _⟩ | ⟨_, e, _⟩ <;> rw [e] at hgoes ⊢
      · rw [writeOffs_moveBytes (by omega), hrem]
        exact Nat.lt_add_of_pos_right (by omega)
      · exact absurd hgoes (by simp)

/-- With fuel for the room in the half the loop stops for a reason, its invariant holds there, and it wrote upward from
its cursor only (R174, R183). -/
theorem decodeLoop_spec : ∀ (fuel : Nat) {s : State}, s.LoopOk → 8193 ≤ fuel + s.writeOffs.toNat →
    (decodeLoop fuel s).LoopOk ∧ (decodeLoop fuel s).reason ≠ .none ∧ Wrote s (decodeLoop fuel s)
  | 0, s, h, hf => by have := h.cursor.2; omega
  | fuel + 1, s, h, hf => by
    by_cases hr : s.reason = .none
    · rw [decodeLoop_of_going hr]
      have hok := h.iteration hr
      have hwrote := Wrote.iteration h.cursor.2
      by_cases hr' : (iteration s).reason = .none
      · have hlt := iteration_progress h hr'
        obtain ⟨h1, h2, h3⟩ := decodeLoop_spec fuel hok (by omega)
        exact ⟨h1, h2, hwrote.trans h3⟩
      · rw [decodeLoop_of_stopped hr']
        exact ⟨hok, hr', hwrote⟩
    · rw [decodeLoop_of_stopped hr]
      exact ⟨h, hr, Wrote.refl s⟩

end Sys2Proof.Machine

/-! # A whole PROCESS_CHUNK

The deferred swap and the resumed copy (R150, R161), the ways a command can go (R174, R175), and what holds when it has
closed. -/

namespace Sys2Proof.Machine

/-! ## Step 2 of R174 -/

/-- What holds before step 2 of R174 (`State.PhaseOk` in the phase `swap`), whatever the field `phase` holds. -/
structure State.AtSwap (s : State) : Prop where
  table_wf : s.table.wf = true
  window_wf : Memory.wf s.window = true
  bits_ok : s.nbits.toNat ≤ 8 * (s.totalIn + s.pos)
  position_ok : s.writeOffs.toNat ≤ 4096 + s.totalOut
  boundary : s.Boundary
  header_done : s.needMode = false
  not_ended : s.ended = false
  not_fatal : s.fatal = false
  reason_none : s.reason = .none
  pos_le : s.pos ≤ s.chunk.length

/-- The deferred swap made and the start of the output slice latched (R150, R174 step 2). -/
def latched (s : State) : State :=
  let t := if s.swapPending then doSwap s else s
  { t with start := t.writeOffs }

theorem enterLoop_eq (s : State) :
    enterLoop s = if (latched s).remainingLen = 0 then latched s else copyRun (latched s) := rfl

theorem latched_of_pending {s : State} (h : s.swapPending = true) :
    latched s = { doSwap s with start := 4096 } := by simp [latched, h]

theorem latched_of_not_pending {s : State} (h : s.swapPending = false) :
    latched s = { s with start := s.writeOffs } := by simp [latched, h]

@[simp] theorem latched_start (s : State) : (latched s).start = (latched s).writeOffs := rfl

/-- Step 2 moves no byte and writes only the selector, the cursors, the pending flag and the latch (R66, R150). -/
theorem latched_eq (s : State) : latched s = { s with
    offsXor := (latched s).offsXor, writeOffs := (latched s).writeOffs, swapPending := (latched s).swapPending
    currentOffs := (latched s).currentOffs, start := (latched s).start } := by
  cases h : s.swapPending with
  | true => rw [latched_of_pending h]; rfl
  | false => rw [latched_of_not_pending h]

@[simp] theorem latched_dictBits (s : State) : (latched s).dictBits = s.dictBits := by rw [latched_eq]
@[simp] theorem latched_needMode (s : State) : (latched s).needMode = s.needMode := by rw [latched_eq]
@[simp] theorem latched_needDict (s : State) : (latched s).needDict = s.needDict := by rw [latched_eq]
@[simp] theorem latched_totalIn (s : State) : (latched s).totalIn = s.totalIn := by rw [latched_eq]
@[simp] theorem latched_totalOut (s : State) : (latched s).totalOut = s.totalOut := by rw [latched_eq]
@[simp] theorem latched_window (s : State) : (latched s).window = s.window := by rw [latched_eq]
@[simp] theorem latched_table (s : State) : (latched s).table = s.table := by rw [latched_eq]
@[simp] theorem latched_draw (s : State) : (latched s).draw = s.draw := by rw [latched_eq]
@[simp] theorem latched_port (s : State) : (latched s).port = s.port := by rw [latched_eq]
@[simp] theorem latched_chunk (s : State) : (latched s).chunk = s.chunk := by rw [latched_eq]

theorem State.AtSwap.fault_none {s : State} (h : s.AtSwap) : s.faultCode = .none := by
  have hiff := h.boundary.fatal_iff_code
  rw [h.not_fatal] at hiff
  exact Decidable.of_not_not fun hne => absurd (hiff.mpr hne) (by simp)

/-- Without a pending swap there is room in the half and no copy is left (R37 items 3 and 5). -/
theorem State.AtSwap.not_pending_room {s : State} (h : s.AtSwap) (hp : s.swapPending = false) :
    s.writeOffs ≠ 8192 ∧ s.remainingLen = 0 := by
  constructor
  · intro hw
    exact absurd (h.boundary.full_iff_pending.mp hw) (by simp [hp])
  · exact Decidable.of_not_not fun hn => absurd (h.boundary.copy hn).1 (by simp [hp])

theorem toggle_selector {x : BitVec 13} (h : x = 0 ∨ x = 4096) : x ^^^ 4096 = 0 ∨ x ^^^ 4096 = 4096 := by
  rcases h with rfl | rfl
  · exact .inr rfl
  · exact .inl rfl

theorem State.AtSwap.latched_going {s : State} (h : s.AtSwap) : (latched s).Going := by
  have hdict : s.needDict = false := by rw [← h.boundary.header_equal, h.header_done]
  have hfatal : s.fatal = false ∧ s.faultCode = .none := ⟨h.not_fatal, h.fault_none⟩
  cases hp : s.swapPending with
  | true =>
    rw [latched_of_pending hp]
    exact { h, h.boundary with
      position_ok := Nat.le_add_right _ _
      start_ok := ⟨le_rfl, (by decide : (4096 : BitVec 14).toNat ≤ 8191), le_rfl⟩
      selector := toggle_selector h.boundary.selector
      cursor := ⟨le_rfl, (by decide : (4096 : BitVec 14).toNat ≤ 8192)⟩
      not_pending := rfl
      header_done := ⟨h.header_done, hdict⟩
      not_fatal := hfatal }
  | false =>
    rw [latched_of_not_pending hp]
    have hlt := writeOffs_lt h.boundary.cursor.2 (h.not_pending_room hp).1
    have hge := h.boundary.cursor.1
    exact { h, h.boundary with
      start_ok := ⟨hge, Nat.le_of_lt_succ hlt, le_rfl⟩
      not_pending := hp
      header_done := ⟨h.header_done, hdict⟩
      not_fatal := hfatal }

/-- A copy that is resumed starts at the bottom of the half with its source below it (R151, R161). -/
theorem State.AtSwap.latched_copy {s : State} (h : s.AtSwap) (hn : (latched s).remainingLen ≠ 0) :
    (latched s).writeOffs.toNat = 4096 ∧ (latched s).currentOffs.toNat < 4096 := by
  cases hp : s.swapPending with
  | false =>
    rw [latched_of_not_pending hp] at hn
    exact absurd (h.not_pending_room hp).2 hn
  | true =>
    rw [latched_of_pending hp] at hn ⊢
    obtain ⟨_, _, hsrc⟩ := h.boundary.copy hn
    have hn : s.remainingLen ≠ 0 := hn
    refine ⟨rfl, ?_⟩
    have hlt := s.currentOffs.isLt
    change (if s.remainingLen = 0 then s.currentOffs else s.currentOffs - 4096).toNat < 4096
    rw [if_neg hn, BitVec.toNat_sub, show (4096 : BitVec 13).toNat = 4096 from rfl]
    omega

theorem State.AtSwap.enterLoop_loopOk {s : State} (h : s.AtSwap) : (enterLoop s).LoopOk := by
  rw [enterLoop_eq]
  split
  · next h0 => exact h.latched_going.loopOk h0
  · next hn =>
    obtain ⟨hw, hc⟩ := h.latched_copy hn
    exact h.latched_going.copyRun (by omega) (by omega)

theorem enterLoop_frame (s : State) : LoopFrame (latched s) (enterLoop s) := by
  rw [enterLoop_eq]
  split
  · exact LoopFrame.refl _
  · exact LoopFrame.copyRun _

theorem State.AtSwap.enterLoop_wrote {s : State} (h : s.AtSwap) : Wrote (latched s) (enterLoop s) := by
  rw [enterLoop_eq]
  split
  · exact Wrote.refl _
  · exact Wrote.copyRun h.latched_going.cursor.2

/-! ## Steps 2 and 3 of R174 -/

/-- The state in which the loop of a command has stopped. -/
def runLoop (s : State) : State := decodeLoop (loopFuel (enterLoop s)) (enterLoop s)

theorem runLoop_frame (s : State) : LoopFrame (latched s) (runLoop s) :=
  (enterLoop_frame s).trans (LoopFrame.decodeLoop _ _)

section

variable {s : State} (h : s.AtSwap)
include h

theorem State.AtSwap.runLoop_spec :
    (runLoop s).LoopOk ∧ (runLoop s).reason ≠ .none ∧ Wrote (latched s) (runLoop s) := by
  have hok := h.enterLoop_loopOk
  have hle := hok.cursor.2
  obtain ⟨h1, h2, h3⟩ := decodeLoop_spec (loopFuel (enterLoop s)) hok (by rw [loopFuel]; omega)
  exact ⟨h1, h2, h.enterLoop_wrote.trans h3⟩

theorem State.AtSwap.runLoop_stopped : (runLoop s).Stopped :=
  h.runLoop_spec.1.stopped h.runLoop_spec.2.1

end

/-! ## The ways a command can go -/

/-- The header's two bytes consumed (R142 to R144). -/
def headerDone (dict : Byte) (s : State) : State := clearHeader { s with dictBits := dict, pos := 2 }

/-- The command closed with the response of its loop (R174 steps 4 and 5). -/
def closeLoop (s : State) : State := closeCommand (loopResponse s) s

theorem consumeHeader_done {s : State} (h : s.headerOutstanding = false) : consumeHeader s = .goesOn s := by
  simp only [consumeHeader, h, if_true]

section

variable {s : State} (h : s.headerOutstanding = true)
include h

theorem consumeHeader_nil (hc : s.chunk = []) :
    consumeHeader s = .ends (emptyResponse .needMode .none .none) s := by
  simp only [consumeHeader, h, hc, Bool.true_eq_false, if_false]

theorem consumeHeader_unsupported {b : Byte} {rest : List Byte} (hc : s.chunk = b :: rest) (hb : b ≠ 0) :
    consumeHeader s = .ends (emptyResponse .fatal .unsupportedMode .none) (raiseFatal .unsupportedMode s) := by
  simp only [consumeHeader, h, hc, Bool.true_eq_false, if_false, hb, ne_eq, not_false_eq_true, if_true]

theorem consumeHeader_single (hc : s.chunk = [0]) :
    consumeHeader s = .ends (emptyResponse .needDictBits .none .none) s := by
  simp only [consumeHeader, h, hc, Bool.true_eq_false, if_false, ne_eq, not_true_eq_false]

theorem consumeHeader_both {dict : Byte} {rest : List Byte} (hc : s.chunk = 0 :: dict :: rest) :
    consumeHeader s = .goesOn (headerDone dict s) := by
  simp only [consumeHeader, h, hc, Bool.true_eq_false, if_false, ne_eq, not_true_eq_false, headerDone]

end

section

variable {chunk : List Byte} {s : State}

theorem processChunk_fatal (h : s.fatal = true) : processChunk chunk s =
    closeCommand (emptyResponse .fatal s.faultCode .none) (openCommand chunk s) := by
  simp only [processChunk, openCommand_fatal, h, if_true, openCommand_faultCode]

theorem processChunk_ended (h : s.fatal = false) (he : s.ended = true) : processChunk chunk s =
    closeCommand (emptyResponse .ok .none .ended) (openCommand chunk s) := by
  simp only [processChunk, openCommand_fatal, openCommand_ended, h, he, if_true, Bool.false_eq_true, if_false]

theorem processChunk_ends (h : s.fatal = false) (he : s.ended = false) {r : Response} {t : State}
    (hh : consumeHeader (openCommand chunk s) = .ends r t) : processChunk chunk s = closeCommand r t := by
  simp only [processChunk, openCommand_fatal, openCommand_ended, h, he, Bool.false_eq_true, if_false, hh]

theorem processChunk_goesOn (h : s.fatal = false) (he : s.ended = false) {t : State}
    (hh : consumeHeader (openCommand chunk s) = .goesOn t) : processChunk chunk s = closeLoop (runLoop t) := by
  simp only [processChunk, openCommand_fatal, openCommand_ended, h, he, Bool.false_eq_true, if_false, hh]
  rfl

end

/-- The ways a PROCESS_CHUNK can go (R174, R175, R144). -/
theorem processChunk_cases {motive : State → Prop} (chunk : List Byte) (s : State)
    (fatal : s.fatal = true →
      motive (closeCommand (emptyResponse .fatal s.faultCode .none) (openCommand chunk s)))
    (ended : s.fatal = false → s.ended = true →
      motive (closeCommand (emptyResponse .ok .none .ended) (openCommand chunk s)))
    (noMode : s.fatal = false → s.ended = false → s.headerOutstanding = true → chunk = [] →
      motive (closeCommand (emptyResponse .needMode .none .none) (openCommand chunk s)))
    (badMode : s.fatal = false → s.ended = false → s.headerOutstanding = true →
      ∀ b rest, chunk = b :: rest → b ≠ 0 →
      motive (closeCommand (emptyResponse .fatal .unsupportedMode .none)
        (raiseFatal .unsupportedMode (openCommand chunk s))))
    (noDict : s.fatal = false → s.ended = false → s.headerOutstanding = true → chunk = [0] →
      motive (closeCommand (emptyResponse .needDictBits .none .none) (openCommand chunk s)))
    (header : s.fatal = false → s.ended = false → s.headerOutstanding = true →
      ∀ dict rest, chunk = 0 :: dict :: rest → motive (closeLoop (runLoop (headerDone dict (openCommand chunk s)))))
    (goesOn : s.fatal = false → s.ended = false → s.headerOutstanding = false →
      motive (closeLoop (runLoop (openCommand chunk s)))) : motive (processChunk chunk s) := by
  cases hf : s.fatal with
  | true => rw [processChunk_fatal hf]; exact fatal hf
  | false =>
    cases he : s.ended with
    | true => rw [processChunk_ended hf he]; exact ended hf he
    | false =>
      cases hh : s.headerOutstanding with
      | false => rw [processChunk_goesOn hf he (consumeHeader_done hh)]; exact goesOn hf he hh
      | true =>
        have hopen : ∀ c, (openCommand c s).headerOutstanding = true := fun _ => hh
        match chunk with
        | [] => rw [processChunk_ends hf he (consumeHeader_nil (hopen _) rfl)]; exact noMode hf he hh rfl
        | b :: rest =>
          by_cases hb : b = 0
          · subst hb
            match rest with
            | [] => rw [processChunk_ends hf he (consumeHeader_single (hopen _) rfl)]; exact noDict hf he hh rfl
            | dict :: rest =>
              rw [processChunk_goesOn hf he (consumeHeader_both (hopen _) rfl)]
              exact header hf he hh dict rest rfl
          · rw [processChunk_ends hf he (consumeHeader_unsupported (hopen _) rfl hb)]
            exact badMode hf he hh b rest rfl hb

theorem exec_processChunk_idle {s : State} (h : s.phase = .idle) (chunk : List Byte) :
    exec (.processChunk chunk) s = .next (processChunk chunk s) :=
  whenIdle_idle h fun s => .next (processChunk chunk s)

theorem processChunk_of_exec {s t : State} {chunk : List Byte} (h : s.phase = .idle)
    (ht : exec (.processChunk chunk) s = .next t) : t = processChunk chunk s := by
  rw [exec_processChunk_idle h] at ht
  exact (Host.Outcome.next.inj ht).symm

/-! ## A command from a good state -/

/-- A command that closes where the ten items of R37 hold leaves the invariant of the idle machine. -/
theorem closeCommand_inv {s : State} {r : Response} (hT : s.table.wf = true) (hm : Memory.wf s.window = true)
    (hbits : s.nbits.toNat ≤ 8 * (s.totalIn + r.consumed)) (hpos : s.writeOffs.toNat ≤ 4096 + s.totalOut)
    (hb : s.Boundary) : (closeCommand r s).Inv where
  table_wf := hT
  window_wf := hm
  bits_ok := by simpa using hbits
  position_ok := hpos
  phase_ok := ⟨{ hb with }, rfl, rfl⟩

/-- A fatal mode byte keeps the ten items of R37 (R206). -/
theorem State.Boundary.raiseFatal {s : State} (h : s.Boundary) (he : s.ended = false) :
    (raiseFatal .unsupportedMode s).Boundary :=
  { h with
    fatal_iff_code := by simp
    not_both := fun hb => absurd hb.1 (by simp [he]) }

theorem State.LoopOk.closeLoop_inv {s : State} (h : s.LoopOk) (hr : s.reason ≠ .none) : (closeLoop s).Inv :=
  closeCommand_inv h.table_wf h.window_wf h.bits_ok h.position_ok (h.stopped hr).boundary

/-- In a good state a header byte is outstanding exactly where `need_mode` says so (R37 item 6). -/
theorem State.Boundary.headerOutstanding_eq {s : State} (h : s.Boundary) : s.headerOutstanding = s.needMode := by
  rw [State.headerOutstanding, ← h.header_equal, Bool.or_self]

/-- The header outstanding, the registers are at their reset values (R37 item 7), so consuming the header leads to
step 2 of R174. -/
theorem State.Boundary.headerDone_atSwap {s : State} (h : s.Boundary) (hT : s.table.wf = true)
    (hm : Memory.wf s.window = true) (hpos : s.writeOffs.toNat ≤ 4096 + s.totalOut) (hn : s.needMode = true)
    (hf : s.fatal = false) (hr : s.reason = .none) {dict : Byte} {rest : List Byte}
    (hc : s.chunk = 0 :: dict :: rest) : (headerDone dict s).AtSwap := by
  obtain ⟨_, _, _, hbits, hrem, _, _, hpend, hend⟩ := h.header_reset hn
  exact
    { table_wf := hT
      window_wf := hm
      bits_ok := by
        change s.nbits.toNat ≤ _
        rw [hbits]
        exact Nat.zero_le _
      position_ok := hpos
      boundary :=
        { h with
          header_equal := rfl
          header_reset := fun e => absurd e (by simp [headerDone])
          ended_quiet := fun e => absurd (hend.symm.trans e) (by simp) }
      header_done := rfl
      not_ended := hend
      not_fatal := hf
      reason_none := hr
      pos_le := by
        change 2 ≤ s.chunk.length
        rw [hc]
        exact Nat.le_add_left _ _ }

section

variable {s : State} (h : s.Inv) (hp : s.phase = .idle)
include h hp

theorem State.Inv.idle_boundary : s.Boundary := by
  have hphase := h.phase_ok
  simp only [State.PhaseOk, hp] at hphase
  exact hphase.1

theorem State.Inv.idle_bits : s.nbits.toNat ≤ 8 * s.totalIn := by simpa [hp] using h.bits_ok

theorem State.Inv.openCommand_boundary (chunk : List Byte) : (openCommand chunk s).Boundary :=
  { h.idle_boundary hp with }

theorem State.Inv.openCommand_atSwap (chunk : List Byte) (hf : s.fatal = false) (he : s.ended = false)
    (hh : s.headerOutstanding = false) : (openCommand chunk s).AtSwap where
  table_wf := h.table_wf
  window_wf := h.window_wf
  bits_ok := h.idle_bits hp
  position_ok := h.position_ok
  boundary := h.openCommand_boundary hp chunk
  header_done := by
    rw [(h.idle_boundary hp).headerOutstanding_eq] at hh
    exact hh
  not_ended := he
  not_fatal := hf
  reason_none := rfl
  pos_le := Nat.zero_le _

/-- From a good state a command answers early (R175), is turned back at the header (R144), or runs its loop from a
state that differs from this one by the command's own fields and the header. -/
theorem State.Inv.processChunk_cases {motive : State → Prop} (chunk : List Byte)
    (fatal : s.fatal = true →
      motive (closeCommand (emptyResponse .fatal s.faultCode .none) (openCommand chunk s)))
    (ended : s.fatal = false → s.ended = true →
      motive (closeCommand (emptyResponse .ok .none .ended) (openCommand chunk s)))
    (noMode : s.fatal = false → s.needMode = true → chunk = [] →
      motive (closeCommand (emptyResponse .needMode .none .none) (openCommand chunk s)))
    (badMode : s.fatal = false → s.ended = false → s.needMode = true → ∀ b rest, chunk = b :: rest → b ≠ 0 →
      motive (closeCommand (emptyResponse .fatal .unsupportedMode .none)
        (raiseFatal .unsupportedMode (openCommand chunk s))))
    (noDict : s.fatal = false → s.needMode = true → chunk = [0] →
      motive (closeCommand (emptyResponse .needDictBits .none .none) (openCommand chunk s)))
    (runs : ∀ t : State, t.AtSwap → (s.needMode = false → t.dictBits = s.dictBits) →
      t = { openCommand chunk s with
        dictBits := t.dictBits, needMode := false, needDict := false, pos := t.pos } →
      motive (closeLoop (runLoop t))) : motive (processChunk chunk s) := by
  have hb := h.idle_boundary hp
  have hout := hb.headerOutstanding_eq
  refine Machine.processChunk_cases chunk s fatal ended (fun hf _ hh hc => noMode hf (hout ▸ hh) hc)
    (fun hf he hh b rest hc hne => badMode hf he (hout ▸ hh) b rest hc hne)
    (fun hf _ hh hc => noDict hf (hout ▸ hh) hc) (fun hf _ hh dict rest hc => ?_) (fun hf he hh => ?_)
  · have hn : s.needMode = true := hout ▸ hh
    exact runs _ ((h.openCommand_boundary hp chunk).headerDone_atSwap h.table_wf h.window_wf h.position_ok hn hf rfl hc)
      (fun e => absurd (hn.symm.trans e) (by simp)) rfl
  · have hswap := h.openCommand_atSwap hp chunk hf he hh
    have hn : s.needMode = false := hswap.header_done
    have hd : s.needDict = false := hb.header_equal ▸ hn
    refine runs _ hswap (fun _ => rfl) ?_
    have heta : openCommand chunk s = { openCommand chunk s with needMode := s.needMode, needDict := s.needDict } := rfl
    rw [hn, hd] at heta
    exact heta

/-- A command turned back before its loop leaves the invariant. -/
theorem State.Inv.closeCommand_openCommand_inv (chunk : List Byte) (status : Status) (code : FaultCode) (stop : Stop) :
    (closeCommand (emptyResponse status code stop) (openCommand chunk s)).Inv :=
  closeCommand_inv h.table_wf h.window_wf (h.idle_bits hp) h.position_ok (h.openCommand_boundary hp chunk)

theorem State.Inv.processChunk_inv (chunk : List Byte) : (processChunk chunk s).Inv := by
  have early := h.closeCommand_openCommand_inv hp chunk
  refine h.processChunk_cases hp chunk (fun _ => early ..) (fun _ _ => early ..) (fun _ _ _ => early ..)
    (fun _ he _ _ _ _ _ => ?_) (fun _ _ _ => early ..) (fun t ht _ _ => ?_)
  · exact closeCommand_inv h.table_wf h.window_wf (h.idle_bits hp) h.position_ok
      ((h.openCommand_boundary hp chunk).raiseFatal he)
  · obtain ⟨hok, hr, _⟩ := ht.runLoop_spec
    exact hok.closeLoop_inv hr

end

/-! ## The response -/

theorem runLoop_start (s : State) : (runLoop s).start = (latched s).writeOffs :=
  (runLoop_frame s).start.trans (latched_start s)

/-- The length of the output slice, as a number (R178): at most a half. -/
theorem State.LoopOk.outLen_eq {s : State} (h : s.LoopOk) :
    (loopResponse s).outLen.toNat = s.writeOffs.toNat - s.start.toNat := by
  obtain ⟨h1, h2, h3⟩ := h.start_ok
  obtain ⟨_, h4⟩ := h.cursor
  simp only [loopResponse, BitVec.toNat_setWidth, BitVec.toNat_sub]
  omega

/-- Settles O40: the loop stops within its fuel and leaves the ten items of R37 (`decodeLoop_spec`). -/
theorem processChunkAlwaysCompletes : Obligations.ProcessChunkAlwaysCompletes := by
  intro chunk s h hp
  rw [exec_processChunk_idle hp]
  have hinv := h.processChunk_inv hp chunk
  suffices hresp : (processChunk chunk s).phase = .idle ∧ ∃ r, (processChunk chunk s).response = some r ∧
      r.consumed ≤ chunk.length ∧ r.outLen.toNat ≤ 4096 by
    obtain ⟨hidle, r, hr, hle, hlen⟩ := hresp
    exact ⟨_, r, rfl, hinv, hidle, hr, hle, hlen⟩
  have empty : ∀ status code stop (t : State), (closeCommand (emptyResponse status code stop) t).phase = .idle ∧
      ∃ r, (closeCommand (emptyResponse status code stop) t).response = some r ∧ r.consumed ≤ chunk.length ∧
        r.outLen.toNat ≤ 4096 := fun _ _ _ _ => ⟨rfl, _, rfl, Nat.zero_le _, Nat.zero_le _⟩
  refine h.processChunk_cases (motive := fun t => t.phase = .idle ∧ ∃ r, t.response = some r ∧
    r.consumed ≤ chunk.length ∧ r.outLen.toNat ≤ 4096) hp chunk (fun _ => empty ..) (fun _ _ => empty ..)
    (fun _ _ _ => empty ..) (fun _ _ _ _ _ _ _ => empty ..) (fun _ _ _ => empty ..) (fun t ht _ heq => ⟨rfl, _, rfl, ?_, ?_⟩)
  · obtain ⟨hok, _, _⟩ := ht.runLoop_spec
    have hchunk : (runLoop t).chunk = chunk := by
      rw [(runLoop_frame t).chunk, latched_chunk, heq]
      rfl
    exact hchunk ▸ hok.pos_le
  · obtain ⟨hok, _, _⟩ := ht.runLoop_spec
    obtain ⟨h1, _, _⟩ := hok.start_ok
    obtain ⟨_, h2⟩ := hok.cursor
    rw [hok.outLen_eq]
    omega

end Sys2Proof.Machine

/-! # The invariant

It holds after reset, and every step keeps it: between commands a whole command, inside one a small step (R37, R42,
R182). -/

namespace Sys2Proof.Machine

/-! ## Reset -/

/-- With every register at its reset value the ten items of R37 hold (R231). -/
theorem State.RegistersReset.boundary {s : State} (h : s.RegistersReset) : s.Boundary := by
  obtain ⟨hsel, hcur, hacc, hbits, hrem, hsrc, hdict, hmode, hndict, hpend, hend, hfatal, hcode, _, _⟩ := h
  exact
    { selector := .inl hsel
      cursor := by rw [hcur]; decide
      full_iff_pending := by rw [hcur, hpend]; decide
      bits := by rw [hbits, hacc]; decide
      copy := fun hn => absurd hrem hn
      header_equal := by rw [hmode, hndict]
      header_reset := fun _ => ⟨hsel, hcur, hacc, hbits, hrem, hsrc, hdict, hpend, hend⟩
      ended_quiet := fun he => absurd (hend.symm.trans he) (by decide)
      fatal_iff_code := by rw [hfatal, hcode]; decide
      not_both := fun hb => absurd (hend.symm.trans hb.1) (by decide) }

/-- With no command in progress the invariant is R37's ten items and the conditions on table, window and positions. -/
theorem State.Inv.of_idle {s : State} (hp : s.phase = .idle) (hT : s.table.wf = true)
    (hm : Memory.wf s.window = true) (hbits : s.nbits.toNat ≤ 8 * s.totalIn)
    (hpos : s.writeOffs.toNat ≤ 4096 + s.totalOut) (hb : s.Boundary) (hr : s.reason = .none)
    (hd : s.decoded = none) : s.Inv where
  table_wf := hT
  window_wf := hm
  bits_ok := by simpa [hp] using hbits
  position_ok := hpos
  phase_ok := by simpa only [State.PhaseOk, hp] using ⟨hb, hr, hd⟩

theorem State.RegistersReset.inv {s : State} (h : s.RegistersReset) (hp : s.phase = .idle) (hT : s.table.wf = true)
    (hm : Memory.wf s.window = true) (hr : s.reason = .none) (hd : s.decoded = none) : s.Inv := by
  have hb := h.boundary
  obtain ⟨_, hcur, _, hbits, _⟩ := h
  refine State.Inv.of_idle hp hT hm ?_ ?_ hb hr hd
  · rw [hbits]
    exact Nat.zero_le _
  · rw [hcur]
    exact Nat.le_add_right 4096 _

theorem resetRegisters_reset (s : State) : (resetRegisters s).RegistersReset :=
  ⟨rfl, rfl, rfl, rfl, rfl, rfl, rfl, rfl, rfl, rfl, rfl, rfl, rfl, rfl, rfl⟩

/-- Settles O1: the values of R231. -/
theorem resetStateHasTheResetValues : Obligations.ResetStateHasTheResetValues := resetRegisters_reset State.reset

/-- Settles O2, from the reset values and the standard table. -/
theorem resetStateKeepsTheInvariant : Obligations.ResetStateKeepsTheInvariant :=
  resetStateHasTheResetValues.inv rfl standardTable_wf rfl rfl rfl

/-! ## The commands -/

theorem exec_reset_idle {s : State} (h : s.phase = .idle) :
    exec .reset s = .next (dropOutputs (resetRegisters s)) :=
  whenIdle_idle h fun s => .next (dropOutputs (resetRegisters s))

theorem exec_isEnded_idle {s : State} (h : s.phase = .idle) :
    exec .isEnded s = .next { dropOutputs s with answer := some s.ended } :=
  whenIdle_idle h fun s => .next { dropOutputs s with answer := some s.ended }

/-- What NEW can answer between commands (R171, R209). -/
theorem exec_new_idle {s t : State} {T : CodeTable} (h : s.phase = .idle) (ht : exec (.new T) s = .next t) :
    T.wf = true ∧ t = { dropOutputs (resetRegisters s) with table := T, window := [], draw := s.draw + 1 } := by
  rw [exec_new, execNew, whenIdle_idle h] at ht
  split at ht
  · next hT => exact ⟨hT, (Host.Outcome.next.inj ht).symm⟩
  · cases ht

/-- Settles O37. -/
theorem isEndedAnswersTheFlag : Obligations.IsEndedAnswersTheFlag := fun _ h => exec_isEnded_idle h

/-- Settles O60: after RESET the output position is 0 and the selector too, so no source counts as written. -/
theorem sourcesBeforeTheStreamAreFree : Obligations.SourcesBeforeTheStreamAreFree := by
  intro s t distance l hp ht hd
  rw [exec_reset_idle hp] at ht
  obtain rfl := Host.Outcome.next.inj ht
  have haddr : physical (dropOutputs (resetRegisters s)) l = l := by simp [physical]
  have htotal : ¬ distance ≤ (dropOutputs (resetRegisters s)).totalOut := by simp; omega
  rw [haddr, sourceByte, dropOutputs_window, resetRegisters_window, dropOutputs_draw, resetRegisters_draw]
  cases cellRead s.window l.toNat with
  | none => rfl
  | some b => exact if_neg htotal

/-- A command record is one of the four commands (R38). -/
theorem decodeCommand_cases (r : CommandRecord) :
    decodeCommand r = .isEnded ∨ decodeCommand r = .processChunk r.chunk ∨ decodeCommand r = .reset ∨
      decodeCommand r = .new r.table := by
  simp only [decodeCommand]
  split
  · exact .inl rfl
  · split
    · exact .inr (.inl rfl)
    · split
      · exact .inr (.inr (.inl rfl))
      · exact .inr (.inr (.inr rfl))

section

variable {s : State} (h : s.Inv) (hp : s.phase = .idle)
include h hp

theorem State.Inv.idle_reason : s.reason = .none ∧ s.decoded = none := by
  have hphase := h.phase_ok
  simp only [State.PhaseOk, hp] at hphase
  exact hphase.2

theorem State.Inv.setPort (port : List CommandRecord) : ({ s with port := port } : State).Inv :=
  .of_idle hp h.table_wf h.window_wf (h.idle_bits hp) h.position_ok { h.idle_boundary hp with }
    (h.idle_reason hp).1 (h.idle_reason hp).2

/-- Each of the four commands keeps the invariant (R170 to R174). -/
theorem State.Inv.exec_command {t : State} (r : CommandRecord) (ht : exec (decodeCommand r) s = .next t) : t.Inv := by
  obtain ⟨hr, hd⟩ := h.idle_reason hp
  rcases decodeCommand_cases r with e | e | e | e <;> rw [e] at ht
  · rw [exec_isEnded_idle hp] at ht
    obtain rfl := Host.Outcome.next.inj ht
    exact .of_idle hp h.table_wf h.window_wf (h.idle_bits hp) h.position_ok { h.idle_boundary hp with } hr hd
  · rw [processChunk_of_exec hp ht]
    exact h.processChunk_inv hp _
  · rw [exec_reset_idle hp] at ht
    obtain rfl := Host.Outcome.next.inj ht
    exact State.RegistersReset.inv (resetRegisters_reset s) hp h.table_wf h.window_wf hr hd
  · obtain ⟨hT, rfl⟩ := exec_new_idle hp ht
    exact State.RegistersReset.inv (resetRegisters_reset s) hp hT rfl hr hd

end

/-! ## The header steps -/

theorem step_modeByte_close {s : State} (h : s.phase = .modeByte) (hr : s.reason ≠ .none) :
    step s = .next (closeCommand (emptyResponse .fatal s.faultCode .none) s) := by
  simp [step, fetch, fetchMode, h, hr]

theorem step_modeByte_empty {s : State} (h : s.phase = .modeByte) (hr : s.reason = .none) (hc : s.chunk[0]? = none) :
    step s = .next (closeCommand (emptyResponse .needMode .none .none) s) := by
  simp only [step, fetch, fetchMode, h, hr, hc, ne_eq, not_true_eq_false, if_false]

theorem step_dictByte_missing {s : State} (h : s.phase = .dictByte) (hc : s.chunk[1]? = none) :
    step s = .next (closeCommand (emptyResponse .needDictBits .none .none) s) := by
  simp only [step, fetch, fetchDict, h, hc]

/-- A command that closes at the header, where no bit is held (R37 item 7), keeps the invariant. -/
theorem State.Inv.closeHeader {s : State} (h : s.Inv) (hb : s.Boundary) (hn : s.needMode = true) (status : Status)
    (code : FaultCode) : (closeCommand (emptyResponse status code .none) s).Inv := by
  obtain ⟨_, _, _, hbits, _⟩ := hb.header_reset hn
  refine closeCommand_inv h.table_wf h.window_wf ?_ h.position_ok hb
  rw [hbits]
  exact Nat.zero_le _

theorem headerOutstanding_of_needMode {s : State} (h : s.needMode = true) : s.headerOutstanding = true := by
  simp [State.headerOutstanding, h]

/-- MODE where the header is outstanding (R141). -/
theorem exec_mode_cases {s : State} (h : s.headerOutstanding = true) (b : Byte) :
    (b = 0 ∧ exec (.mode b) s = .next { s with phase := .dictByte }) ∨
      (b ≠ 0 ∧ exec (.mode b) s = .next (raiseFatal .unsupportedMode s)) := by
  by_cases hb : b = 0
  · exact .inl ⟨hb, by simp [exec_mode, execMode, h, hb]⟩
  · refine .inr ⟨hb, ?_⟩
    simp only [exec_mode, execMode, h, Bool.true_eq_false, if_false, ne_eq, hb, not_false_eq_true, if_true]

/-- DICT where the header is outstanding (R142). -/
theorem exec_dict_outstanding {s : State} (h : s.headerOutstanding = true) (b : Byte) :
    exec (.dict b) s = .next (clearHeader { s with dictBits := b, pos := 2, phase := .swap }) := by
  simp [exec_dict, execDict, h]

theorem State.Inv.step_modeByte {s t : State} (h : s.Inv) (hp : s.phase = .modeByte) (ht : step s = .next t) :
    t.Inv := by
  have hphase := h.phase_ok
  simp only [State.PhaseOk, hp] at hphase
  obtain ⟨hb, hn, hd, hreason⟩ := hphase
  obtain ⟨_, _, _, hbits, _, _, _, _, hend⟩ := hb.header_reset hn
  have hzero : ∀ n, s.nbits.toNat ≤ n := fun n => by rw [hbits]; exact Nat.zero_le _
  by_cases hr : s.reason = .none
  · have hfatal : s.fatal = false := by
      rcases hreason with ⟨_, hf⟩ | ⟨hr', _⟩
      · exact hf
      · exact absurd (hr.symm.trans hr') (by decide)
    cases hc : s.chunk[0]? with
    | none =>
      rw [step_modeByte_empty hp hr hc] at ht
      obtain rfl := Host.Outcome.next.inj ht
      exact h.closeHeader hb hn _ _
    | some b =>
      rw [Machine.step_modeByte hp hr hc] at ht
      rcases exec_mode_cases (headerOutstanding_of_needMode hn) b with ⟨_, e⟩ | ⟨_, e⟩ <;>
        obtain rfl := Host.Outcome.next.inj (e.symm.trans ht)
      · exact ⟨h.table_wf, h.window_wf, hzero _, h.position_ok, ⟨{ hb with }, hn, hfatal, hr, hd⟩⟩
      · refine ⟨h.table_wf, h.window_wf, hzero _, h.position_ok, ?_⟩
        simpa only [State.PhaseOk, raiseFatal_phase, hp] using
          ⟨hb.raiseFatal hend, hn, hd, Or.inr ⟨rfl, rfl⟩⟩
  · rw [step_modeByte_close hp hr] at ht
    obtain rfl := Host.Outcome.next.inj ht
    exact h.closeHeader hb hn _ _

theorem State.Inv.step_dictByte {s t : State} (h : s.Inv) (hp : s.phase = .dictByte) (ht : step s = .next t) :
    t.Inv := by
  have hphase := h.phase_ok
  simp only [State.PhaseOk, hp] at hphase
  obtain ⟨hb, hn, hf, hr, hd⟩ := hphase
  obtain ⟨_, _, _, hbits, _, _, _, _, hend⟩ := hb.header_reset hn
  cases hc : s.chunk[1]? with
  | none =>
    rw [step_dictByte_missing hp hc] at ht
    obtain rfl := Host.Outcome.next.inj ht
    exact h.closeHeader hb hn _ _
  | some b =>
    rw [Machine.step_dictByte hp hc, exec_dict_outstanding (headerOutstanding_of_needMode hn)] at ht
    obtain rfl := Host.Outcome.next.inj ht
    have hlen : 2 ≤ s.chunk.length := (List.getElem?_eq_some_iff.mp hc).1
    have hzero : ∀ n, s.nbits.toNat ≤ n := fun n => by rw [hbits]; exact Nat.zero_le _
    refine ⟨h.table_wf, h.window_wf, hzero _, h.position_ok, ?_, rfl, hend, hf, hr, hd, hlen⟩
    exact { hb with
      header_equal := rfl
      header_reset := fun e => absurd e (by simp)
      ended_quiet := fun e => absurd (hend.symm.trans e) (by decide) }

theorem State.Inv.step_swap {s t : State} (h : s.Inv) (hp : s.phase = .swap) (ht : step s = .next t) : t.Inv := by
  have hphase := h.phase_ok
  simp only [State.PhaseOk, hp] at hphase
  obtain ⟨hb, hn, he, hf, hr, _, hle⟩ := hphase
  have hbits : s.nbits.toNat ≤ 8 * (s.totalIn + s.pos) := by simpa [hp] using h.bits_ok
  have hswap : s.AtSwap := ⟨h.table_wf, h.window_wf, hbits, h.position_ok, hb, hn, he, hf, hr, hle⟩
  rw [Machine.step_swap hp] at ht
  obtain rfl := Host.Outcome.next.inj ht
  have hok := hswap.enterLoop_loopOk
  refine State.LoopOk.inv ?_ rfl
  exact { hok with
    running := fun e => { hok.running e with }
    stopped := fun e => { hok.stopped e with boundary := { (hok.stopped e).boundary with } } }

/-! ## The steps of the loop -/

/-- A symbol keeps the invariant of the loop if its effect does where there is room and its bits are there (R176). -/
theorem State.Going.applySymbol {s : State} (h : s.Going) (h0 : s.remainingLen = 0) {used : Nat}
    {effect : State → State} (heff : s.writeOffs ≠ 8192 → used ≤ s.nbits.toNat → (effect s).LoopOk) :
    (applySymbol used effect s).LoopOk := by
  rcases applySymbol_cases used effect s with ⟨hw, e⟩ | ⟨hw, _, e⟩ | ⟨hw, hu, e⟩ <;> rw [e]
  · exact h.stopHalfFull hw fun hn => absurd h0 hn
  · exact h.stopNeedBits hw h0
  · exact heff hw hu

section

variable {s t : State} (h : s.Going) (h0 : s.remainingLen = 0)
include h h0

theorem State.Going.exec_lit {b : Byte} (ht : exec (.lit b) s = .next t) : t.LoopOk := by
  obtain rfl := Host.Outcome.next.inj ht
  exact h.applySymbol h0 fun hw hu => (h.literalEffect b (writeOffs_lt h.cursor.2 hw) hu).loopOk h0

theorem State.Going.exec_endMark {lc extra : Nat} (ht : exec (.endMark lc extra) s = .next t) : t.LoopOk := by
  obtain rfl := Host.Outcome.next.inj ht
  exact h.applySymbol h0 fun hw hu => h.endEffect hw h0 hu

theorem State.Going.exec_ofPair {lc extra dc low : Nat} (hlc : lc < 16)
    (ht : exec (.ofPair lc extra dc low) s = .next t) : t.LoopOk := by
  have hgo : ({ s with decoded := none } : State).Going := { h with }
  rw [Machine.exec_ofPair hlc] at ht
  by_cases hend : lengthValue s.table lc extra = s.table.endValue
  · rw [pairInstr_end hend] at ht
    obtain rfl := Host.Outcome.next.inj ht
    exact hgo.applySymbol h0 fun hw hu => hgo.endEffect hw h0 hu
  · rw [pairInstr_pair hend] at ht
    obtain rfl := Host.Outcome.next.inj ht
    exact hgo.applySymbol h0 fun hw hu => hgo.pairEffect hw h0 hu (pairDistance_pos _ _ _) _

theorem State.Going.exec_ofDist {dc low : Nat} (hdc : dc < 64) (hw : s.writeOffs ≠ 8192)
    (ht : exec (.ofDist dc low) s = .next t) : t.LoopOk := by
  rw [Machine.exec_ofDist hdc, distInstr] at ht
  split at ht
  · cases ht
  · obtain rfl := Host.Outcome.next.inj ht
    split
    · exact h.stopNeedBits hw h0
    · have hgo : ∀ d, ({ s with decoded := d } : State).Going := fun _ => { h with }
      exact (hgo _).loopOk h0

end

/-- No symbol and no distance sub-field writes the fields of `LoopFrame`, from any state. -/
theorem exec_frame {i : Instr} {s t : State} (hi : i.space = .symbol ∨ i.space = .distance)
    (ht : exec i s = .next t) : LoopFrame s t := by
  induction i using Instr.casesShape with
  | lit b =>
    obtain rfl := Host.Outcome.next.inj ht
    exact .applySymbol (.literalEffect b s) _
  | endMark lc extra =>
    obtain rfl := Host.Outcome.next.inj ht
    exact .applySymbol (.endEffect _ s) _
  | pair lc hlc extra dc low =>
    have hdrop : LoopFrame s { s with decoded := none } := {}
    rw [exec_ofPair hlc] at ht
    by_cases hend : lengthValue s.table lc extra = s.table.endValue
    · rw [pairInstr_end hend] at ht
      obtain rfl := Host.Outcome.next.inj ht
      exact hdrop.trans (.applySymbol (.endEffect _ _) _)
    · rw [pairInstr_pair hend] at ht
      obtain rfl := Host.Outcome.next.inj ht
      exact hdrop.trans (.applySymbol (.pairEffect _ _ _ _) _)
  | dist dc hdc low =>
    rw [exec_ofDist hdc, distInstr] at ht
    split at ht
    · cases ht
    · obtain rfl := Host.Outcome.next.inj ht
      split
      · exact .stopNeedBits s
      · exact {}
  | mode | dict | isEnded | processChunk | reset | new => rcases hi with hi | hi <;> cases hi

/-- What a loop iteration runs first: a literal, the end marker, or a pair's distance part (R121, R125). -/
theorem decodeStage_cases {win nbits d used : Nat} {T : CodeTable} {i : Instr} (hT : T.wf = true)
    (h : decodeStage win nbits T d = .sym i used) :
    (∃ b, i = .lit b) ∨ (∃ lc extra, i = .endMark lc extra) ∨ ∃ dc low, dc < 64 ∧ i = .ofDist dc low := by
  unfold decodeStage at h
  rcases decodeWith_cases Instr.lit (fun len => .endMark len.code len.extra)
    (fun _ dist => .ofDist dist.code dist.low) win nbits T d with ⟨_, e⟩ | ⟨_, _, e⟩ | ⟨_, _, e⟩ <;> rw [e] at h <;>
    obtain ⟨hi, _, _⟩ := checkBits_sym h
  · exact .inl ⟨_, hi.symm⟩
  · exact .inr (.inl ⟨_, _, hi.symm⟩)
  · exact .inr (.inr ⟨_, _, distancePart_code_lt hT _ _ _, hi.symm⟩)

theorem State.LoopOk.step {s t : State} (h : s.LoopOk) (hp : s.phase = .loop) (hr : s.reason = .none)
    (ht : step s = .next t) : t.LoopOk ∧ LoopFrame s t := by
  have h0 := h.no_copy hr
  have hgo := (h.going hr).refill
  have hfill := LoopFrame.refill s
  cases hd : s.decoded with
  | some dist =>
    have hlc := lengthPart_code_lt h.table_wf s.acc.toNat
    rw [step_loop_pair hp hr hd] at ht
    exact ⟨(h.going hr).exec_ofPair h0 hlc ht, exec_frame (.inl (Instr.space_ofPair hlc _ _ _)) ht⟩
  | none =>
    by_cases hw : s.writeOffs = 8192
    · rw [step_loop_full hp hr hd hw] at ht
      obtain rfl := Host.Outcome.next.inj ht
      exact ⟨hgo.stopHalfFull hw fun hn => absurd h0 hn, hfill.trans (.stopHalfFull _)⟩
    · cases hi : decodeStage (refill s).acc.toNat (refill s).nbits.toNat s.table s.dictBits.toNat with
      | needBits n =>
        rw [step_loop_needBits hp hr hd hw hi] at ht
        obtain rfl := Host.Outcome.next.inj ht
        exact ⟨hgo.stopNeedBits hw h0, hfill.trans (.stopNeedBits _)⟩
      | sym i used =>
        rw [step_loop_stage hp hr hd hw hi] at ht
        rcases decodeStage_cases h.table_wf hi with ⟨b, rfl⟩ | ⟨lc, extra, rfl⟩ | ⟨dc, low, hdc, rfl⟩
        · exact ⟨hgo.exec_lit h0 ht, hfill.trans (exec_frame (.inl rfl) ht)⟩
        · exact ⟨hgo.exec_endMark h0 ht, hfill.trans (exec_frame (.inl rfl) ht)⟩
        · exact ⟨hgo.exec_ofDist h0 hdc hw ht, hfill.trans (exec_frame (.inr (Instr.space_ofDist hdc _)) ht)⟩

theorem State.Inv.step_loop {s t : State} (h : s.Inv) (hp : s.phase = .loop) (ht : step s = .next t) : t.Inv := by
  have hok := h.loopOk hp
  by_cases hr : s.reason = .none
  · obtain ⟨hok', hframe⟩ := hok.step hp hr ht
    exact hok'.inv (hframe.phase.trans hp)
  · rw [step_loop_close hp hr] at ht
    obtain rfl := Host.Outcome.next.inj ht
    exact hok.closeLoop_inv hr

/-- Settles O54, phase by phase. -/
theorem everyStepKeepsTheInvariant : Obligations.EveryStepKeepsTheInvariant := by
  intro s t h ht
  cases hp : s.phase with
  | idle =>
    cases hport : s.port with
    | nil =>
      rw [step_idle_waiting hp hport] at ht
      exact Host.Outcome.next.inj ht ▸ h
    | cons r rest =>
      rw [step_idle_command hp hport] at ht
      exact (h.setPort hp rest).exec_command hp r ht
  | modeByte => exact h.step_modeByte hp ht
  | dictByte => exact h.step_dictByte hp ht
  | swap => exact h.step_swap hp ht
  | loop => exact h.step_loop hp ht

/-! ## What an instruction keeps -/

theorem exec_mode_done {s : State} (h : s.headerOutstanding = false) (b : Byte) : exec (.mode b) s = .next s := by
  simp [exec_mode, execMode, h]

theorem exec_dict_done {s : State} (h : s.headerOutstanding = false) (b : Byte) : exec (.dict b) s = .next s := by
  simp [exec_dict, execDict, h]

/-- MODE writes no register but the two of a fatal condition, and it only sets the flag (R141, R206). -/
theorem exec_mode_kept {s t : State} {b : Byte} (ht : exec (.mode b) s = .next t) :
    t.table = s.table ∧ t.dictBits = s.dictBits ∧ t.needMode = s.needMode ∧ t.needDict = s.needDict ∧
      (s.fatal = true → t.fatal = true) ∧ t.ended = s.ended := by
  cases h : s.headerOutstanding with
  | false =>
    obtain rfl := Host.Outcome.next.inj ((exec_mode_done h b).symm.trans ht)
    exact ⟨rfl, rfl, rfl, rfl, id, rfl⟩
  | true =>
    rcases exec_mode_cases h b with ⟨_, e⟩ | ⟨_, e⟩ <;> obtain rfl := Host.Outcome.next.inj (e.symm.trans ht)
    · exact ⟨rfl, rfl, rfl, rfl, id, rfl⟩
    · exact ⟨rfl, rfl, rfl, rfl, fun _ => rfl, rfl⟩

theorem exec_dict_kept {s t : State} {b : Byte} (ht : exec (.dict b) s = .next t) :
    t.table = s.table ∧ t.fatal = s.fatal ∧ t.ended = s.ended := by
  cases h : s.headerOutstanding with
  | false =>
    obtain rfl := Host.Outcome.next.inj ((exec_dict_done h b).symm.trans ht)
    exact ⟨rfl, rfl, rfl⟩
  | true =>
    obtain rfl := Host.Outcome.next.inj ((exec_dict_outstanding h b).symm.trans ht)
    exact ⟨rfl, rfl, rfl⟩

/-- A command that answers ran with no other in progress (R240). -/
theorem idle_of_whenIdle {s t : State} {run : State → Host.Outcome State Fault Refusal}
    (h : whenIdle s run = .next t) : s.phase = .idle := by
  by_cases hp : s.phase = .idle
  · exact hp
  · rw [whenIdle_busy hp] at h
    cases h

theorem idle_of_exec_command {i : Instr} {s t : State} (hi : i.space = .command) (ht : exec i s = .next t) :
    s.phase = .idle := by
  induction i using Instr.casesShape with
  | isEnded => rw [exec_isEnded, execIsEnded] at ht; exact idle_of_whenIdle ht
  | processChunk chunk => rw [exec_processChunk, execProcessChunk] at ht; exact idle_of_whenIdle ht
  | reset => rw [exec_reset, execReset] at ht; exact idle_of_whenIdle ht
  | new table => rw [exec_new, execNew] at ht; exact idle_of_whenIdle ht
  | pair lc hlc extra dc low => rw [Instr.space_ofPair hlc] at hi; cases hi
  | dist dc hdc low => rw [Instr.space_ofDist hdc] at hi; cases hi
  | mode | dict | lit | endMark => cases hi

theorem runLoop_table (s : State) : (runLoop s).table = s.table :=
  (runLoop_frame s).table.trans (latched_table s)

/-- R41: PROCESS_CHUNK reads the CodeTable only. -/
theorem processChunk_table (chunk : List Byte) (s : State) : (processChunk chunk s).table = s.table :=
  processChunk_cases (motive := fun t => t.table = s.table) chunk s (fun _ => rfl) (fun _ _ => rfl)
    (fun _ _ _ _ => rfl) (fun _ _ _ _ _ _ _ => rfl) (fun _ _ _ _ => rfl) (fun _ _ _ _ _ _ => runLoop_table _)
    (fun _ _ _ => runLoop_table _)

/-- R175: with `fatal` or `ended` set PROCESS_CHUNK answers early and leaves both flags. -/
theorem processChunk_flags (chunk : List Byte) (s : State) :
    (s.fatal = true → (processChunk chunk s).fatal = true) ∧
      (s.ended = true → (processChunk chunk s).ended = true) := by
  cases hf : s.fatal with
  | true =>
    rw [processChunk_fatal hf]
    exact ⟨fun _ => hf, id⟩
  | false =>
    refine ⟨fun e => absurd e (by decide), fun he => ?_⟩
    rw [processChunk_ended hf he]
    exact he

/-- Settles O55, by the shape of the instruction. -/
theorem onlyResetAndNewClearFatalAndEnded : Obligations.OnlyResetAndNewClearFatalAndEnded := by
  intro i s t ht hreset hnew
  have kept (hframe : LoopFrame s t) : (s.fatal = true → t.fatal = true) ∧ (s.ended = true → t.ended = true) :=
    ⟨hframe.fatal_kept, hframe.ended_kept⟩
  induction i using Instr.casesShape with
  | mode b =>
    obtain ⟨_, _, _, _, hf, he⟩ := exec_mode_kept ht
    exact ⟨hf, he.trans⟩
  | dict b =>
    obtain ⟨_, hf, he⟩ := exec_dict_kept ht
    exact ⟨hf.trans, he.trans⟩
  | lit b => exact kept (exec_frame (.inl rfl) ht)
  | endMark lc extra => exact kept (exec_frame (.inl rfl) ht)
  | pair lc hlc extra dc low => exact kept (exec_frame (.inl (Instr.space_ofPair hlc _ _ _)) ht)
  | dist dc hdc low => exact kept (exec_frame (.inr (Instr.space_ofDist hdc _)) ht)
  | isEnded =>
    rw [exec_isEnded_idle (idle_of_exec_command rfl ht)] at ht
    obtain rfl := Host.Outcome.next.inj ht
    exact ⟨id, id⟩
  | processChunk chunk =>
    rw [processChunk_of_exec (idle_of_exec_command rfl ht) ht]
    exact processChunk_flags chunk s
  | reset => exact absurd rfl hreset
  | new table => exact absurd rfl (hnew table)

/-- Settles O56, by the shape of the instruction. -/
theorem tableAndHeaderHaveFewWriters : Obligations.TableAndHeaderHaveFewWriters := by
  intro i s t ht
  have kept (hframe : LoopFrame s t) : ((∀ T, i ≠ .new T) → t.table = s.table) ∧
      ((∀ T, i ≠ .new T) → i ≠ .reset → (∀ b, i ≠ .dict b) → (∀ chunk, i ≠ .processChunk chunk) →
        t.dictBits = s.dictBits ∧ t.needMode = s.needMode ∧ t.needDict = s.needDict) :=
    ⟨fun _ => hframe.table, fun _ _ _ _ => ⟨hframe.dictBits, hframe.needMode, hframe.needDict⟩⟩
  induction i using Instr.casesShape with
  | mode b =>
    obtain ⟨hT, hd, hm, hn, _, _⟩ := exec_mode_kept ht
    exact ⟨fun _ => hT, fun _ _ _ _ => ⟨hd, hm, hn⟩⟩
  | dict b =>
    obtain ⟨hT, _, _⟩ := exec_dict_kept ht
    exact ⟨fun _ => hT, fun _ _ hdict _ => absurd rfl (hdict b)⟩
  | lit b => exact kept (exec_frame (.inl rfl) ht)
  | endMark lc extra => exact kept (exec_frame (.inl rfl) ht)
  | pair lc hlc extra dc low => exact kept (exec_frame (.inl (Instr.space_ofPair hlc _ _ _)) ht)
  | dist dc hdc low => exact kept (exec_frame (.inr (Instr.space_ofDist hdc _)) ht)
  | isEnded =>
    rw [exec_isEnded_idle (idle_of_exec_command rfl ht)] at ht
    obtain rfl := Host.Outcome.next.inj ht
    exact ⟨fun _ => rfl, fun _ _ _ _ => ⟨rfl, rfl, rfl⟩⟩
  | processChunk chunk =>
    rw [processChunk_of_exec (idle_of_exec_command rfl ht) ht]
    exact ⟨fun _ => processChunk_table chunk s, fun _ _ _ hchunk => absurd rfl (hchunk chunk)⟩
  | reset =>
    rw [exec_reset_idle (idle_of_exec_command rfl ht)] at ht
    obtain rfl := Host.Outcome.next.inj ht
    exact ⟨fun _ => rfl, fun _ hreset _ _ => absurd rfl hreset⟩
  | new table => exact ⟨fun hnew => absurd rfl (hnew table), fun hnew _ _ _ => absurd rfl (hnew table)⟩

end Sys2Proof.Machine

/-! # The response and the output slice of a command

What a PROCESS_CHUNK from a good state answers (R178, R179) and which bytes of the window it writes (R29, R178). -/

namespace Sys2Proof.Machine

/-- The status and the stop of a loop's response say what the flags say (R174, R179). -/
theorem State.Stopped.response {s : State} (h : s.Stopped) (hr : s.reason ≠ .none) :
    ((loopResponse s).status = .ok ∧ s.fatal = false ∧ (loopResponse s).faultCode = .none ∧
        (loopResponse s).stop = if s.ended then .ended else if s.swapPending then .halfFull else .needBits) ∨
      ((loopResponse s).status = .fatal ∧ s.fatal = true ∧ (loopResponse s).faultCode = s.faultCode ∧
        (loopResponse s).stop = .none) := by
  have he : s.ended = decide (s.reason = .ended) := by rw [Bool.eq_iff_iff, h.ended_iff, decide_eq_true_iff]
  have hf : s.fatal = decide (s.reason = .fault) := by rw [Bool.eq_iff_iff, h.fatal_iff, decide_eq_true_iff]
  have hp : s.swapPending = decide (s.reason = .halfFull) := by
    rw [Bool.eq_iff_iff, h.pending_iff, decide_eq_true_iff]
  rw [he, hf, hp]
  simp only [loopResponse]
  cases hreason : s.reason with
  | none => exact absurd hreason hr
  | fault => exact .inr ⟨rfl, rfl, rfl, rfl⟩
  | needBits => exact .inl ⟨rfl, rfl, rfl, rfl⟩
  | halfFull => exact .inl ⟨rfl, rfl, rfl, rfl⟩
  | ended => exact .inl ⟨rfl, rfl, rfl, rfl⟩

/-- What R179 asks of a response and the state it stands in. -/
def ResponseFits (t : State) (r : Response) : Prop :=
  (r.status = .ok → r.faultCode = .none ∧
    r.stop = if t.ended then .ended else if t.swapPending then .halfFull else .needBits) ∧
  (r.status = .fatal ↔ t.fatal = true) ∧ (r.status = .fatal → r.faultCode = t.faultCode) ∧
  (r.status ≠ .ok → r.stop = .none) ∧
  (r.status = .needMode ∨ r.status = .needDictBits → t.needMode = true ∧ r.consumed = 0 ∧ r.outLen = 0)

theorem responseFits_fatal {t : State} {r : Response} (hs : r.status = .fatal) (hf : t.fatal = true)
    (hc : r.faultCode = t.faultCode) (hstop : r.stop = .none) : ResponseFits t r := by
  refine ⟨fun e => ?_, ⟨fun _ => hf, fun _ => hs⟩, fun _ => hc, fun _ => hstop, fun e => ?_⟩ <;> simp [hs] at e

theorem responseFits_ok {t : State} {r : Response} (hs : r.status = .ok) (hf : t.fatal = false)
    (hc : r.faultCode = .none)
    (hstop : r.stop = if t.ended then .ended else if t.swapPending then .halfFull else .needBits) :
    ResponseFits t r := by
  refine ⟨fun _ => ⟨hc, hstop⟩, ?_, fun e => ?_, fun e => absurd hs e, fun e => ?_⟩
  · simp [hs, hf]
  · simp [hs] at e
  · simp [hs] at e

/-- Header backpressure (R202, R203). -/
theorem responseFits_header {t : State} {status : Status} (hs : status = .needMode ∨ status = .needDictBits)
    (hf : t.fatal = false) (hn : t.needMode = true) : ResponseFits t (emptyResponse status .none .none) := by
  have hok : status ≠ .ok := by rcases hs with rfl | rfl <;> decide
  have hfatal : status ≠ .fatal := by rcases hs with rfl | rfl <;> decide
  exact ⟨fun e => absurd e hok, ⟨fun e => absurd e hfatal, fun e => absurd (hf.symm.trans e) (by decide)⟩,
    fun e => absurd e hfatal, fun _ => rfl, fun _ => ⟨hn, rfl, rfl⟩⟩

/-- Settles O41, by the ways a command can go. -/
theorem responseFollowsTheFlags : Obligations.ResponseFollowsTheFlags := by
  intro chunk s t r h hp ht hresp
  obtain rfl := processChunk_of_exec hp ht
  revert r
  refine h.processChunk_cases (motive := fun t => ∀ r, t.response = some r → ResponseFits t r) hp chunk
    (fun hf r hr => ?_) (fun hf he r hr => ?_) (fun hf hn _ r hr => ?_) (fun _ _ _ _ _ _ _ r hr => ?_)
    (fun hf hn _ r hr => ?_) (fun u hu _ _ r hr => ?_) <;> obtain rfl := Option.some.inj hr
  · exact responseFits_fatal rfl hf rfl rfl
  · exact responseFits_ok rfl hf rfl (if_pos he).symm
  · exact responseFits_header (.inl rfl) hf hn
  · exact responseFits_fatal rfl rfl rfl rfl
  · exact responseFits_header (.inr rfl) hf hn
  · obtain ⟨_, hreason, _⟩ := hu.runLoop_spec
    rcases hu.runLoop_stopped.response hreason with ⟨hs, hf, hc, hstop⟩ | ⟨hs, hf, hc, hstop⟩
    · exact responseFits_ok hs hf hc hstop
    · exact responseFits_fatal hs hf hc hstop

/-! ## The output slice -/

/-- The selector flips bit 12 of a coordinate (R63). -/
theorem xor_4096 {a : Nat} (h : a < 8192) : a ^^^ 4096 = if a < 4096 then a + 4096 else a - 4096 := by
  have hdiv : (a ^^^ 4096) / 2 ^ 12 = a / 2 ^ 12 ^^^ 1 := Nat.xor_div_two_pow
  have hmod : (a ^^^ 4096) % 2 ^ 12 = a % 2 ^ 12 := by
    rw [Nat.xor_mod_two_pow, show 4096 % 2 ^ 12 = 0 from rfl, Nat.xor_zero]
  split
  · rw [show a / 2 ^ 12 = 0 by omega, show 0 ^^^ 1 = 1 from rfl] at hdiv
    omega
  · rw [show a / 2 ^ 12 = 1 by omega, show 1 ^^^ 1 = 0 from rfl] at hdiv
    omega

/-- Coordinates and physical addresses are the same, or the halves are exchanged (R63). -/
theorem physical_cases {s : State} (h : s.offsXor = 0 ∨ s.offsXor = 4096) (l : BitVec 13) :
    (s.offsXor = 0 ∧ (physical s l).toNat = l.toNat) ∨
      (s.offsXor = 4096 ∧ (physical s l).toNat = if l.toNat < 4096 then l.toNat + 4096 else l.toNat - 4096) := by
  rcases h with e | e
  · exact .inl ⟨e, congrArg BitVec.toNat (by rw [physical, e]; exact BitVec.xor_zero)⟩
  · refine .inr ⟨e, ?_⟩
    rw [physical, e, BitVec.toNat_xor]
    exact xor_4096 l.isLt

theorem State.LoopOk.selector {s : State} (h : s.LoopOk) : s.offsXor = 0 ∨ s.offsXor = 4096 := by
  by_cases hr : s.reason = .none
  · exact (h.running hr).selector
  · exact (h.stopped hr).boundary.selector

/-- The slice as physical addresses: the coordinates from the latch up to the cursor, in the half the selector names
(R63, R178). -/
theorem State.LoopOk.slice {s : State} (h : s.LoopOk) :
    (loopResponse s).outOff.toNat = (if s.offsXor = 0 then s.start.toNat else s.start.toNat - 4096) ∧
      (loopResponse s).outLen.toNat = s.writeOffs.toNat - s.start.toNat := by
  obtain ⟨h1, h2, _⟩ := h.start_ok
  have hstart : (s.start.setWidth 13).toNat = s.start.toNat := by
    rw [BitVec.toNat_setWidth]
    exact Nat.mod_eq_of_lt (by omega)
  have hoff : (loopResponse s).outOff = physical s (s.start.setWidth 13) := rfl
  refine ⟨?_, h.outLen_eq⟩
  rcases physical_cases h.selector (s.start.setWidth 13) with ⟨e, hp⟩ | ⟨e, hp⟩ <;> rw [hoff, hp, hstart, e]
  · rfl
  · rw [if_neg (by omega), if_neg (by decide)]

/-- A byte outside the slice has a coordinate outside the ones written. -/
theorem State.LoopOk.outside_slice {s : State} (h : s.LoopOk) {p : BitVec 13}
    (hp : p.toNat < (loopResponse s).outOff.toNat ∨
      (loopResponse s).outOff.toNat + (loopResponse s).outLen.toNat ≤ p.toNat) :
    (physical s p).toNat < s.start.toNat ∨ s.writeOffs.toNat ≤ (physical s p).toNat := by
  obtain ⟨hoff, hlen⟩ := h.slice
  obtain ⟨h1, h2, h3⟩ := h.start_ok
  rw [hoff, hlen] at hp
  rcases physical_cases h.selector p with ⟨e, hphys⟩ | ⟨e, hphys⟩ <;> rw [hphys]
  · rw [if_pos e] at hp
    omega
  · rw [if_neg (by rw [e]; decide)] at hp
    split <;> omega

/-- What R178 asks of a command's effect. -/
def WritesOnlySlice (s t : State) (r : Response) : Prop :=
  (r.outOff.toNat / 4096 + 1) * 4096 ≥ r.outOff.toNat + r.outLen.toNat ∧
    SameWindowOutside r.outOff.toNat r.outLen.toNat s t ∧ t.totalOut = s.totalOut + r.outLen.toNat ∧
    t.totalIn = s.totalIn + r.consumed ∧ t.table = s.table ∧ t.draw = s.draw ∧ t.port = s.port ∧
    (s.needMode = false → t.dictBits = s.dictBits ∧ t.needMode = false ∧ t.needDict = false)

/-- A command turned back before its loop writes nothing. The flags a fatal mode byte sets are none of the fields R178
speaks of, so this covers that case too. -/
theorem writesOnlySlice_empty {s : State} (h : s.Boundary) (chunk : List Byte) (status : Status) (code : FaultCode)
    (stop : Stop) :
    WritesOnlySlice s (closeCommand (emptyResponse status code stop) (openCommand chunk s))
      (emptyResponse status code stop) :=
  ⟨Nat.zero_le _, fun _ _ => rfl, rfl, rfl, rfl, rfl, rfl, fun hn => ⟨rfl, hn, h.header_equal ▸ hn⟩⟩

/-- The loop of a command writes only its slice. -/
theorem State.AtSwap.writesOnlySlice {s u : State} {chunk : List Byte} (hu : u.AtSwap)
    (heq : u = { openCommand chunk s with
      dictBits := u.dictBits, needMode := false, needDict := false, pos := u.pos })
    (hdict : s.needMode = false → u.dictBits = s.dictBits) :
    WritesOnlySlice s (closeLoop (runLoop u)) (loopResponse (runLoop u)) := by
  obtain ⟨hok, _, hwrote⟩ := hu.runLoop_spec
  have hframe := runLoop_frame u
  have hstart := runLoop_start u
  obtain ⟨hoff, hlen⟩ := hok.slice
  obtain ⟨h1, h2, h3⟩ := hok.start_ok
  have hle := hok.cursor.2
  have hmem : ∀ p, memRead (latched u) p = memRead s p := fun p => by
    rw [memRead, memRead, latched_draw, latched_window, heq]
    rfl
  refine ⟨?_, fun p hout => ?_, ?_, ?_, ?_, ?_, ?_, fun hn => ⟨?_, ?_, ?_⟩⟩
  · rw [hoff, hlen]
    split <;> omega
  · have hcoord := hok.outside_slice hout
    rw [hstart] at hcoord
    calc memRead (closeLoop (runLoop u)) p
        = winRead (runLoop u) (physical (runLoop u) p) := by rw [winRead, physical_physical]; rfl
      _ = winRead (latched u) (physical (runLoop u) p) := hwrote.frame _ hcoord
      _ = memRead (latched u) p := by rw [winRead, physical, physical, hframe.offsXor, BitVec.xor_assoc,
          BitVec.xor_self, BitVec.xor_zero]
      _ = memRead s p := hmem p
  · change (runLoop u).totalOut = _
    rw [hlen, hstart, hwrote.count, latched_totalOut, heq]
    rfl
  · change (runLoop u).totalIn + _ = _
    rw [hframe.totalIn, latched_totalIn, heq]
    rfl
  · change (runLoop u).table = _
    rw [hframe.table, latched_table, heq]
    rfl
  · change (runLoop u).draw = _
    rw [hframe.draw, latched_draw, heq]
    rfl
  · change (runLoop u).port = _
    rw [hframe.port, latched_port, heq]
    rfl
  · exact hframe.dictBits.trans ((latched_dictBits u).trans (hdict hn))
  · change (runLoop u).needMode = _
    rw [hframe.needMode, latched_needMode, heq]
  · change (runLoop u).needDict = _
    rw [hframe.needDict, latched_needDict, heq]

/-- Settles O42: the loop writes from the latch upward (`Wrote`), and nothing it does touches the fields of
`LoopFrame`. -/
theorem commandWritesOnlyItsOutputSlice : Obligations.CommandWritesOnlyItsOutputSlice := by
  intro chunk s t r h hp ht hresp
  obtain rfl := processChunk_of_exec hp ht
  revert r
  have empty := writesOnlySlice_empty (h.idle_boundary hp) chunk
  refine h.processChunk_cases (motive := fun t => ∀ r, t.response = some r → WritesOnlySlice s t r) hp chunk
    (fun _ r hr => ?_) (fun _ _ r hr => ?_) (fun _ _ _ r hr => ?_) (fun _ _ hn _ _ _ _ r hr => ?_)
    (fun _ _ _ r hr => ?_) (fun u hu hdict heq r hr => ?_) <;> obtain rfl := Option.some.inj hr
  · exact empty ..
  · exact empty ..
  · exact empty ..
  · exact empty ..
  · exact empty ..
  · exact hu.writesOnlySlice heq hdict

end Sys2Proof.Machine

/-! # More bytes at the end of a chunk

Two runs of one command, the second with bytes appended to its chunk. Until the first one runs out of bits they do the
same; the second only holds more bits, read ahead from the appended bytes (R44, R184, R220). -/

namespace Sys2Proof.Machine

/-! ## What does not look at the stream -/

/-- The state with another chunk, accumulator and chunk position. -/
def withStream (s : State) (chunk : List Byte) (acc : BitVec 64) (nbits : BitVec 7) (pos : Nat) : State :=
  { s with chunk := chunk, acc := acc, nbits := nbits, pos := pos }

theorem withStream_eq_of_same {a b : State} {c c' : List Byte} {x x' : BitVec 64} {n n' : BitVec 7} {p p' : Nat}
    (h : b = withStream a c x n p) : withStream b c' x' n' p' = withStream a c' x' n' p' := by rw [h]; rfl

theorem refill_eq_withStream (s : State) :
    refill s = withStream s s.chunk (refill s).acc (refill s).nbits (refill s).pos := rfl

/-- An operation that neither reads nor writes the chunk, the accumulator and the chunk position. -/
def StreamBlind (f : State → State) : Prop :=
  ∀ s chunk acc nbits pos, f (withStream s chunk acc nbits pos) = withStream (f s) chunk acc nbits pos

/-- LIT's write, without the consumption of its bits (R154). -/
def writeLiteral (b : Byte) (s : State) : State :=
  let t := winWrite (s.writeOffs.setWidth 13) b s
  { t with writeOffs := t.writeOffs + 1, totalOut := t.totalOut + 1 }

theorem literalEffect_eq (b : Byte) (s : State) : literalEffect b s = writeLiteral b (consumeBits literalUsed s) := rfl

theorem stopHalfFull_blind : StreamBlind stopHalfFull := fun _ _ _ _ _ => rfl
theorem stopEnded_blind : StreamBlind stopEnded := fun _ _ _ _ _ => rfl
theorem raiseFatal_blind (code : FaultCode) : StreamBlind (raiseFatal code) := fun _ _ _ _ _ => rfl
theorem startCopy_blind (distance length : Nat) : StreamBlind (startCopy distance length) := fun _ _ _ _ _ => rfl
theorem writeLiteral_blind (b : Byte) : StreamBlind (writeLiteral b) := fun _ _ _ _ _ => rfl

theorem copyRun_blind : StreamBlind copyRun := fun s chunk acc nbits pos => by
  change (if (moveBytes (copyCount s) s).remainingLen = 0 then
      withStream (moveBytes (copyCount s) s) chunk acc nbits pos
    else withStream (stopHalfFull (moveBytes (copyCount s) s)) chunk acc nbits pos) = _
  rw [copyRun]
  split <;> rfl

theorem latched_blind : StreamBlind latched := fun s chunk acc nbits pos => by
  cases h : s.swapPending with
  | true => rw [latched_of_pending h, latched_of_pending (s := withStream s chunk acc nbits pos) h]; rfl
  | false => rw [latched_of_not_pending h, latched_of_not_pending (s := withStream s chunk acc nbits pos) h]; rfl

theorem enterLoop_blind : StreamBlind enterLoop := fun s chunk acc nbits pos => by
  rw [enterLoop_eq, enterLoop_eq, latched_blind, copyRun_blind]
  change (if (latched s).remainingLen = 0 then _ else _) = _
  split <;> rfl

/-! ## Reading ahead -/

theorem bytesValue_take_add {m : Nat} {l : List Byte} (h : m ≤ l.length) (k : Nat) :
    bytesValue (l.take (m + k)) = bytesValue (l.take m) + 2 ^ (8 * m) * bytesValue ((l.drop m).take k) := by
  rw [List.take_add, bytesValue_append, List.length_take, Nat.min_eq_left h]

/-- Two ways to cut the same run of bytes. -/
theorem bytesValue_recut {rest : List Byte} {k l m n : Nat} (h : k + l = m + n) (hk : k ≤ rest.length)
    (hm : m ≤ rest.length) :
    bytesValue (rest.take k) + 2 ^ (8 * k) * bytesValue ((rest.drop k).take l) =
      bytesValue (rest.take m) + 2 ^ (8 * m) * bytesValue ((rest.drop m).take n) := by
  rw [← bytesValue_take_add hk, ← bytesValue_take_add hm, h]

/-- The run `b` of a command with `more` appended to its chunk `first` is where the run `a` with `first` alone is, but
`ahead` bytes further in the chunk, which it holds above the bits of `a`. -/
structure ReadsAhead (first more : List Byte) (ahead : Nat) (a b : State) : Prop where
  same : b = withStream a (first ++ more) b.acc b.nbits (a.pos + ahead)
  chunk_eq : a.chunk = first
  nbits_eq : b.nbits.toNat = a.nbits.toNat + 8 * ahead
  acc_eq : b.acc.toNat = a.acc.toNat + 2 ^ a.nbits.toNat * bytesValue (((first ++ more).drop a.pos).take ahead)
  nbits_le : b.nbits.toNat ≤ 64
  acc_lt : a.acc.toNat < 2 ^ a.nbits.toNat
  acc_lt' : b.acc.toNat < 2 ^ b.nbits.toNat
  pos_le : a.pos ≤ first.length
  exhausted : ahead = 0 ∨ a.pos = first.length
  inside : a.pos + ahead ≤ first.length + more.length

namespace ReadsAhead

variable {first more : List Byte} {ahead : Nat} {a b : State} (h : ReadsAhead first more ahead a b)
include h

/-- Every field but those of the stream is the same. -/
theorem field_eq {α : Type} (f : State → α)
    (hf : ∀ s chunk acc nbits pos, f (withStream s chunk acc nbits pos) = f s) : f b = f a := by
  rw [h.same, hf]

theorem pos_eq : b.pos = a.pos + ahead := by rw [h.same]; rfl

theorem map {f : State → State} (hf : StreamBlind f) : ReadsAhead first more ahead (f a) (f b) := by
  have ha : f a = withStream (f a) a.chunk a.acc a.nbits a.pos := hf a a.chunk a.acc a.nbits a.pos
  have hacc : (f a).acc = a.acc := by rw [ha]; rfl
  have hnbits : (f a).nbits = a.nbits := by rw [ha]; rfl
  have hpos : (f a).pos = a.pos := by rw [ha]; rfl
  have hchunk : (f a).chunk = a.chunk := by rw [ha]; rfl
  have hb : f b = withStream (f a) (first ++ more) b.acc b.nbits (a.pos + ahead) := by rw [h.same, hf]; rfl
  have hacc' : (f b).acc = b.acc := by rw [hb]; rfl
  have hnbits' : (f b).nbits = b.nbits := by rw [hb]; rfl
  exact
    { same := by rw [hacc', hnbits', hpos]; exact hb
      chunk_eq := hchunk.trans h.chunk_eq
      nbits_eq := by rw [hnbits', hnbits]; exact h.nbits_eq
      acc_eq := by rw [hacc', hacc, hnbits, hpos]; exact h.acc_eq
      nbits_le := by rw [hnbits']; exact h.nbits_le
      acc_lt := by rw [hacc, hnbits]; exact h.acc_lt
      acc_lt' := by rw [hacc', hnbits']; exact h.acc_lt'
      pos_le := by rw [hpos]; exact h.pos_le
      exhausted := by rw [hpos]; exact h.exhausted
      inside := by rw [hpos]; exact h.inside }

theorem chunk_append : b.chunk = first ++ more := by rw [h.same]; rfl

/-- The longer chunk lets a refill take more bytes only where the shorter one is exhausted (R153). -/
theorem refillCount_split : ∃ n, refillCount a + n = ahead + refillCount b ∧
    a.pos + refillCount a ≤ first.length ∧ (n = 0 ∨ a.pos + refillCount a = first.length) ∧
    a.pos + refillCount a + n ≤ first.length + more.length := by
  have hnb := h.nbits_eq
  have hexh := h.exhausted
  have hpos := h.pos_le
  have hin := h.inside
  rw [refillCount, refillCount, h.chunk_eq, h.chunk_append, h.pos_eq, List.length_append, hnb]
  refine ⟨ahead + min (first.length + more.length - (a.pos + ahead)) ((64 - (a.nbits.toNat + 8 * ahead)) / 8) -
    min (first.length - a.pos) ((64 - a.nbits.toNat) / 8), ?_, ?_, ?_, ?_⟩ <;> omega

/-- What the two runs hold after a refill. -/
theorem refill_acc {n : Nat} (hn : refillCount a + n = ahead + refillCount b)
    (hle : a.pos + refillCount a ≤ first.length) :
    (refill b).acc.toNat = (refill a).acc.toNat + 2 ^ (refill a).nbits.toNat *
      bytesValue (((first ++ more).drop (refill a).pos).take n) := by
  have hnb := h.nbits_eq
  have hleb := h.nbits_le
  have hin := h.inside
  have hlea : a.nbits.toNat ≤ 64 := by omega
  have htake : (first.drop a.pos).take (refillCount a) =
      ((first ++ more).drop a.pos).take (refillCount a) := by
    rw [List.drop_append_of_le_length h.pos_le, List.take_append_of_le_length (by rw [List.length_drop]; omega)]
  have hcut := bytesValue_recut (rest := (first ++ more).drop a.pos) hn.symm
    (by rw [List.length_drop, List.length_append]; omega) (by rw [List.length_drop, List.length_append]; omega)
  rw [List.drop_drop, List.drop_drop] at hcut
  rw [refill_acc_eq hleb h.acc_lt', refill_acc_eq hlea h.acc_lt, refill_nbits_eq hlea h.acc_lt,
    refill_pos_eq hlea h.acc_lt, h.chunk_append, h.chunk_eq, h.acc_eq, hnb, h.pos_eq, htake, Nat.pow_add, Nat.pow_add]
  linear_combination 2 ^ a.nbits.toNat * hcut

theorem refill : ∃ n, ReadsAhead first more n (refill a) (refill b) := by
  obtain ⟨n, hn, hle, hexh, hin⟩ := h.refillCount_split
  have hleb := h.nbits_le
  have hnb := h.nbits_eq
  have hlea : a.nbits.toNat ≤ 64 := by omega
  have hposa := refill_pos_eq hlea h.acc_lt
  have hposb := refill_pos_eq hleb h.acc_lt'
  obtain ⟨_, hlta, _⟩ := refill_spec hlea h.acc_lt (by rw [h.chunk_eq]; exact h.pos_le)
  obtain ⟨hleb', hltb, _⟩ :=
    refill_spec hleb h.acc_lt' (by rw [h.chunk_append, h.pos_eq, List.length_append]; exact h.inside)
  refine ⟨n, ?_, h.chunk_eq, ?_, h.refill_acc hn hle, hleb', hlta, hltb, ?_, ?_, ?_⟩
  · have hpos : (Machine.refill a).pos + n = (Machine.refill b).pos := by rw [hposa, hposb, h.pos_eq]; omega
    have hstream := refill_eq_withStream b
    rw [h.chunk_append, withStream_eq_of_same h.same] at hstream
    rw [hpos, withStream_eq_of_same (refill_eq_withStream a)]
    exact hstream
  · rw [refill_nbits_eq hlea h.acc_lt, refill_nbits_eq hleb h.acc_lt', hnb]
    omega
  · rw [hposa]
    exact hle
  · rw [hposa]
    exact hexh
  · rw [hposa]
    exact hin

theorem consumeBits {used : Nat} (hu : used ≤ a.nbits.toNat) :
    ReadsAhead first more ahead (consumeBits used a) (consumeBits used b) := by
  have hnb := h.nbits_eq
  have hle := h.nbits_le
  obtain ⟨hna', hacca'⟩ := consumeBits_spec (s := a) (used := used) (by omega) h.acc_lt hu
  obtain ⟨hnb', haccb'⟩ := consumeBits_spec (s := b) (used := used) hle h.acc_lt' (by omega)
  exact
    { same := by
        conv_lhs => rw [h.same]
        rfl
      chunk_eq := h.chunk_eq
      nbits_eq := by omega
      acc_eq := by
        obtain ⟨k, hk⟩ := Nat.exists_eq_add_of_le hu
        rw [hna', consumeBits_acc, consumeBits_acc, consumeBits_pos, BitVec.toNat_ushiftRight,
          BitVec.toNat_ushiftRight, Nat.shiftRight_eq_div_pow, Nat.shiftRight_eq_div_pow, h.acc_eq, hk, Nat.pow_add,
          Nat.mul_assoc, Nat.add_mul_div_left _ _ (Nat.two_pow_pos used), Nat.add_sub_cancel_left]
      nbits_le := by omega
      acc_lt := hacca'
      acc_lt' := haccb'
      pos_le := h.pos_le
      exhausted := h.exhausted
      inside := h.inside }

/-- A symbol that the shorter run has all bits of is the longer run's next symbol too (R130). -/
theorem nextSymbol (hT : a.table.wf = true) {sym : Symbol} {used : Nat} (hd : a.nextSymbol = .sym sym used) :
    b.nextSymbol = .sym sym used := by
  have hu := nextSymbol_used hd
  have htable : b.table = a.table := h.field_eq (·.table) fun _ _ _ _ _ => rfl
  have hdict : b.dictBits = a.dictBits := h.field_eq (·.dictBits) fun _ _ _ _ _ => rfl
  have hmod : b.acc.toNat % 2 ^ a.nbits.toNat = a.acc.toNat % 2 ^ a.nbits.toNat := by
    rw [h.acc_eq, Nat.add_mul_mod_self_left]
  rw [State.nextSymbol, htable, hdict]
  exact decodeWith_congr hT hd (mod_two_pow_congr hmod hu) (by rw [h.nbits_eq]; omega)

theorem pairEffect {distance length used : Nat} (hu : used ≤ a.nbits.toNat) :
    ReadsAhead first more ahead (pairEffect distance length used a) (pairEffect distance length used b) := by
  by_cases hfar : distance > 4096
  · rw [pairEffect_far hfar, pairEffect_far hfar]
    exact h.map (raiseFatal_blind _)
  · rw [pairEffect_near (by omega), pairEffect_near (by omega)]
    exact ((h.consumeBits hu).map (startCopy_blind _ _)).map copyRun_blind

/-- While the shorter run does not want for bits, an iteration keeps the runs together. -/
theorem iteration (hT : a.table.wf = true) (hne : (iteration a).reason ≠ .needBits) :
    ∃ n, ReadsAhead first more n (iteration a) (iteration b) := by
  obtain ⟨n, hr⟩ := h.refill
  have hw : b.writeOffs = a.writeOffs := h.field_eq (·.writeOffs) fun _ _ _ _ _ => rfl
  revert hne
  refine iteration_cases
    (motive := fun t => t.reason ≠ .needBits → ∃ n, ReadsAhead first more n t (Machine.iteration b)) a
    (fun hfull _ => ⟨n, ?_⟩) (fun _ _ _ hne => absurd rfl hne) (fun hroom c used hd _ => ⟨n, ?_⟩)
    (fun hroom distance length used hd _ => ⟨n, ?_⟩) (fun hroom used hd _ => ⟨n, ?_⟩)
  · rw [iteration_full (hw.trans hfull)]
    exact hr.map stopHalfFull_blind
  · have hu := nextSymbol_used hd
    rw [iteration_literal (hw ▸ hroom) (hr.nextSymbol hT hd), literalEffect_eq, literalEffect_eq]
    rw [nextSymbol_literal_used hd] at hu
    exact (hr.consumeBits hu).map (writeLiteral_blind c)
  · rw [iteration_pair (hw ▸ hroom) (hr.nextSymbol hT hd)]
    exact hr.pairEffect (nextSymbol_used hd)
  · rw [iteration_end (hw ▸ hroom) (hr.nextSymbol hT hd)]
    exact (hr.consumeBits (nextSymbol_used hd)).map stopEnded_blind

end ReadsAhead

/-- A loop that does not stop for want of bits stops the same with more bytes behind its chunk (R184). -/
theorem ReadsAhead.decodeLoop {first more : List Byte} : ∀ (fuel : Nat) {ahead : Nat} {a b : State},
    ReadsAhead first more ahead a b → a.table.wf = true → (decodeLoop fuel a).reason ≠ .needBits →
    ∃ n, ReadsAhead first more n (decodeLoop fuel a) (decodeLoop fuel b)
  | 0, ahead, _, _, h, _, _ => ⟨ahead, h⟩
  | fuel + 1, ahead, a, b, h, hT, hne => by
    have hreason : b.reason = a.reason := h.field_eq (·.reason) fun _ _ _ _ _ => rfl
    by_cases hr : a.reason = .none
    · rw [decodeLoop_of_going hr] at hne ⊢
      rw [decodeLoop_of_going (hreason.trans hr)]
      have hne' : (Machine.iteration a).reason ≠ .needBits := fun e => by
        rw [decodeLoop_of_stopped (by rw [e]; decide)] at hne
        exact hne e
      obtain ⟨n, hn⟩ := h.iteration hT hne'
      exact ReadsAhead.decodeLoop fuel hn ((LoopFrame.iteration a).table ▸ hT) hne
    · rw [decodeLoop_of_stopped hr, decodeLoop_of_stopped (hreason ▸ hr)]
      exact ⟨ahead, h⟩

theorem ReadsAhead.runLoop {first more : List Byte} {ahead : Nat} {a b : State} (h : ReadsAhead first more ahead a b)
    (hT : a.table.wf = true) (hne : (runLoop a).reason ≠ .needBits) :
    ∃ n, ReadsAhead first more n (runLoop a) (runLoop b) := by
  have henter := h.map enterLoop_blind
  have hfuel : loopFuel (enterLoop b) = loopFuel (enterLoop a) :=
    henter.field_eq loopFuel fun _ _ _ _ _ => rfl
  rw [Machine.runLoop, Machine.runLoop, hfuel]
  refine henter.decodeLoop _ ?_ hne
  rw [(enterLoop_frame a).table, latched_table]
  exact hT

/-! ## The two commands -/

/-- The conclusion of R184 for a stop other than NEED_BITS: `v`, the command with `more` appended, is `t`, the one
without, but for the bytes read ahead. -/
def FilledAhead (first more : List Byte) (t v : State) (r : Response) : Prop :=
  ∃ ahead, ahead ≤ more.length ∧
    v = { t with
      acc := v.acc, nbits := v.nbits, totalIn := t.totalIn + ahead
      response := some { r with consumed := r.consumed + ahead } } ∧
    v.nbits.toNat = t.nbits.toNat + 8 * ahead ∧
    v.acc.toNat = t.acc.toNat + 2 ^ t.nbits.toNat *
      Nat.ofDigits 256 ((((first ++ more).drop r.consumed).take ahead).map BitVec.toNat)

theorem filledAhead_refl (first more : List Byte) {t : State} {r : Response} (h : t.response = some r) :
    FilledAhead first more t t r :=
  ⟨0, Nat.zero_le _, by rw [Nat.add_zero, Nat.add_zero, ← h], rfl, by simp⟩

theorem ReadsAhead.closeLoop {first more : List Byte} {ahead : Nat} {a b : State}
    (h : ReadsAhead first more ahead a b) :
    FilledAhead first more (closeLoop a) (closeLoop b) (loopResponse a) := by
  have hpos := h.pos_le
  have hexh := h.exhausted
  have hin := h.inside
  refine ⟨ahead, by omega, ?_, h.nbits_eq, h.acc_eq⟩
  obtain ⟨acc, nbits, rfl⟩ : ∃ acc nbits, b = withStream a (first ++ more) acc nbits (a.pos + ahead) :=
    ⟨_, _, h.same⟩
  rw [Machine.closeLoop, Machine.closeLoop, closeCommand_totalIn, Nat.add_assoc]
  rfl

/-- The two runs at the start of their loops. -/
theorem readsAhead_start {s : State} (h : s.Boundary) {first : List Byte} (more : List Byte) (hc : s.chunk = first)
    (hle : s.pos ≤ first.length) : ReadsAhead first more 0 s { s with chunk := first ++ more } where
  same := rfl
  chunk_eq := hc
  nbits_eq := rfl
  acc_eq := by simp
  nbits_le := h.bits.1
  acc_lt := h.bits.2
  acc_lt' := h.bits.2
  pos_le := hle
  exhausted := .inl rfl
  inside := by omega

/-- The stops of R184 are the ones other than for want of bits. -/
theorem reason_ne_needBits {s : State}
    (h : (loopResponse s).stop = .halfFull ∨ (loopResponse s).stop = .ended ∨ (loopResponse s).status = .fatal) :
    s.reason ≠ .needBits := fun e => by
  simp [loopResponse, e, Reason.stop] at h

theorem State.AtSwap.filledAhead {s : State} (h : s.AtSwap) {first : List Byte} (more : List Byte)
    (hc : s.chunk = first)
    (hstop : (loopResponse (runLoop s)).stop = .halfFull ∨ (loopResponse (runLoop s)).stop = .ended ∨
      (loopResponse (runLoop s)).status = .fatal) :
    FilledAhead first more (closeLoop (runLoop s)) (closeLoop (runLoop { s with chunk := first ++ more }))
      (loopResponse (runLoop s)) := by
  have hle : s.pos ≤ first.length := hc ▸ h.pos_le
  obtain ⟨n, hn⟩ := (readsAhead_start h.boundary more hc hle).runLoop h.table_wf (reason_ne_needBits hstop)
  exact hn.closeLoop

/-- Settles O47, by the ways the shorter command can go; the two loops are kept together by `ReadsAhead`. -/
theorem appendedBytesDoNotChangeAStop : Obligations.AppendedBytesDoNotChangeAStop := by
  intro first more s t v r h hp ht hresp hstop hv
  obtain rfl := processChunk_of_exec hp ht
  obtain rfl := processChunk_of_exec hp hv
  have hb := h.idle_boundary hp
  suffices H : ∀ r, (processChunk first s).response = some r →
      r.stop = .halfFull ∨ r.stop = .ended ∨ r.status = .fatal →
      FilledAhead first more (processChunk first s) (processChunk (first ++ more) s) r from H r hresp hstop
  clear hresp hstop
  refine processChunk_cases (motive := fun t => ∀ r, t.response = some r →
      r.stop = .halfFull ∨ r.stop = .ended ∨ r.status = .fatal →
      FilledAhead first more t (processChunk (first ++ more) s) r) first s
    (fun hf r hr _ => ?_) (fun hf he r hr _ => ?_) (fun _ _ _ _ r hr hstop => ?_)
    (fun hf he hh b rest hc hne r hr _ => ?_) (fun _ _ _ _ r hr hstop => ?_)
    (fun hf he hh dict rest hc r hr hstop => ?_) (fun hf he hh r hr hstop => ?_)
  · rw [processChunk_fatal hf]
    exact filledAhead_refl first more hr
  · rw [processChunk_ended hf he]
    exact filledAhead_refl first more hr
  · obtain rfl := Option.some.inj hr
    simp [emptyResponse] at hstop
  · rw [processChunk_ends hf he (consumeHeader_unsupported (b := b) (rest := rest ++ more) hh (by rw [hc]; rfl) hne)]
    exact filledAhead_refl first more hr
  · obtain rfl := Option.some.inj hr
    simp [emptyResponse] at hstop
  · obtain rfl := Option.some.inj hr
    have hn : s.needMode = true := hb.headerOutstanding_eq ▸ hh
    have hboth : consumeHeader (openCommand (first ++ more) s) =
        .goesOn (headerDone dict (openCommand (first ++ more) s)) :=
      consumeHeader_both (s := openCommand (first ++ more) s) (rest := rest ++ more) hh (by rw [hc]; rfl)
    rw [processChunk_goesOn hf he hboth]
    exact ((h.openCommand_boundary hp first).headerDone_atSwap h.table_wf h.window_wf h.position_ok hn hf rfl
      hc).filledAhead more rfl hstop
  · obtain rfl := Option.some.inj hr
    rw [processChunk_goesOn hf he (consumeHeader_done hh)]
    exact (h.openCommand_atSwap hp first hf he hh).filledAhead more rfl hstop

end Sys2Proof.Machine

/-! # The CodeTable and the symbols

The test of R42 in the words of R42, and what LIT and PAIR.L0 to PAIR.L15 do (R154, R155). -/

namespace Sys2Proof

/-! ## The CodeTable -/

/-- A test over a list of numbers, index by index. -/
theorem all_iff_getD {p : Nat → Bool} {l : List Nat} :
    l.all p = true ↔ ∀ i < l.length, p (l.getD i 0) = true :=
  ⟨fun h _ hi => getD_all_of_lt h hi, fun h => List.all_eq_true.mpr fun x hx => by
    obtain ⟨i, hi, rfl⟩ := List.mem_iff_getElem.mp hx
    have := h i hi
    rwa [List.getD_eq_getElem _ _ hi] at this⟩

/-- A test over two lists of one length side by side, index by index. -/
theorem all_zip_iff_getD {p : Nat × Nat → Bool} {l m : List Nat} (h : l.length = m.length) :
    (l.zip m).all p = true ↔ ∀ i < l.length, p (l.getD i 0, m.getD i 0) = true := by
  rw [List.all_eq_true]
  constructor
  · intro hall i hi
    rw [List.getD_eq_getElem _ _ hi, List.getD_eq_getElem _ _ (h ▸ hi), ← List.getElem_zip (h := by simp; omega)]
    exact hall _ (List.getElem_mem _)
  · intro hall x hx
    obtain ⟨i, hi, rfl⟩ := List.mem_iff_getElem.mp hx
    have hil : i < l.length := by rw [List.length_zip] at hi; omega
    have := hall i hil
    rwa [List.getD_eq_getElem _ _ hil, List.getD_eq_getElem _ _ (h ▸ hil), ← List.getElem_zip (h := hi)] at this

theorem countsOk_iff (T : CodeTable) : T.countsOk = true ↔
    T.lenExtraBits.length = 16 ∧ T.lenBase.length = 16 ∧ T.lenBits.length = 16 ∧ T.lenAddend.length = 16 ∧
      T.lenLookup.length = 256 ∧ T.distBits.length = 64 ∧ T.distLookup.length = 256 := by
  simp [CodeTable.countsOk, and_assoc]

/-- Items 2, 3, 4 and 7 of R42, for arrays of the right lengths. -/
theorem rangesOk_iff {T : CodeTable} (h : T.countsOk = true) : T.rangesOk = true ↔
    (∀ b < 256, T.lenLookupAt b < 16) ∧ (∀ b < 256, T.distLookupAt b < 64) ∧
    (∀ i < 16, 1 ≤ T.lenBitsAt i ∧ T.lenBitsAt i ≤ 8) ∧ (∀ j < 64, 1 ≤ T.distBitsAt j ∧ T.distBitsAt j ≤ 8) ∧
    (∀ i < 16, T.lenExtraBitsAt i ≤ 8) ∧
    (∀ i < 16, T.lenAddendAt i + 2 ^ T.lenExtraBitsAt i - 1 + 2 ≤ 65535) ∧ T.endValue ≤ 65535 := by
  obtain ⟨hextra, _, hbits, hadd, hlook, hdbits, hdlook⟩ := (countsOk_iff T).mp h
  simp only [CodeTable.rangesOk, Bool.and_eq_true, all_iff_getD, all_zip_iff_getD (hadd.trans hextra.symm),
    decide_eq_true_eq, hextra, hbits, hadd, hlook, hdbits, hdlook, and_assoc]
  rfl

/-- Settles O6, item by item. -/
theorem wellFormedTableIsTheSevenItems : Obligations.WellFormedTableIsTheSevenItems := by
  intro T
  constructor
  · intro h
    refine ⟨T.wf_counts h, fun b _ => ⟨T.wf_lenLookup h b, T.wf_distLookup h b⟩, fun i hi => T.wf_lenBits h hi,
      fun j hj => T.wf_distBits h hj, fun i _ => T.wf_lenExtraBits h i, fun b hb c hc => T.wf_lenPrefix h hb hc,
      fun b hb c hc => T.wf_distPrefix h hb hc, fun i hi => T.wf_addend h hi, T.wf_endValue h⟩
  · rintro ⟨hcounts, hlook, hbits, hdbits, hextra, hpre, hdpre, hadd, hend⟩
    have hc := (countsOk_iff T).mpr hcounts
    obtain ⟨_, _, _, _, hl, _, hdl⟩ := hcounts
    have hranges := (rangesOk_iff hc).mpr ⟨fun b hb => (hlook b hb).1, fun b hb => (hlook b hb).2, hbits, hdbits,
      hextra, hadd, hend⟩
    rw [CodeTable.wf, hc, hranges, (prefixConsistent_iff hl).mpr hpre, (prefixConsistent_iff hdl).mpr hdpre]
    rfl

end Sys2Proof

namespace Sys2Proof.Machine

/-! ## LIT -/

theorem applySymbol_applies {used : Nat} {s : State} (hw : s.writeOffs ≠ 8192) (hu : used ≤ s.nbits.toNat)
    (effect : State → State) : applySymbol used effect s = effect s := by
  rcases applySymbol_cases used effect s with ⟨h, _⟩ | ⟨_, h, _⟩ | ⟨_, _, h⟩
  · exact absurd h hw
  · exact absurd hu (by omega)
  · exact h

theorem consumeBits_nbits_toNat (used : Nat) (s : State) :
    (consumeBits used s).nbits.toNat = s.nbits.toNat - used := by
  rw [consumeBits_nbits, BitVec.toNat_ofNat]
  exact Nat.mod_eq_of_lt (by have := s.nbits.isLt; omega)

/-- Settles O25. -/
theorem literalWritesItsByte : Obligations.LiteralWritesItsByte := by
  intro b s hw hu
  have hroom : s.writeOffs ≠ 8192 := fun e => absurd hw (by rw [e]; decide)
  have hnbits : (literalEffect b s).nbits = s.nbits - 9 := by
    apply BitVec.eq_of_toNat_eq
    have h := consumeBits_nbits_toNat literalUsed s
    change (consumeBits literalUsed s).nbits.toNat = _
    rw [h, BitVec.toNat_sub_of_le hu]
    rfl
  refine ⟨literalEffect b s, ?_, ?_, ?_, ?_⟩
  · exact congrArg Host.Outcome.next (applySymbol_applies hroom hu _)
  · rw [← hnbits]
    rfl
  · exact memRead_memWrite_same _ b s
  · intro p hp
    exact memRead_memWrite_other b s hp

/-! ## PAIR.L0 to PAIR.L15 -/

/-- The state in which the copy engine starts on a pair (R155): its bits dropped, its length and its source set. -/
def pairStarted (distance length used : Nat) (s : State) : State :=
  startCopy distance length (consumeBits used { s with decoded := none })

theorem pairStarted_currentOffs {distance length used : Nat} {s : State} (h1 : 1 ≤ distance)
    (hw : s.writeOffs.toNat ≤ 8192) :
    (pairStarted distance length used s).currentOffs.toNat = s.writeOffs.toNat - distance := by
  change (BitVec.ofNat 13 (s.writeOffs.toNat - distance)).toNat = _
  rw [BitVec.toNat_ofNat]
  exact Nat.mod_eq_of_lt (by omega)

theorem pairStarted_remainingLen {distance length used : Nat} {s : State} (h : length ≤ 65535) :
    (pairStarted distance length used s).remainingLen.toNat = length := by
  change (BitVec.ofNat 16 length).toNat = _
  rw [BitVec.toNat_ofNat]
  exact Nat.mod_eq_of_lt (by omega)

/-- A pair within range, with room and all its bits there, hands over to the copy engine (R155). -/
theorem exec_near_pair {lc extra dc low : Nat} {s : State} (hlc : lc < 16) (hroom : s.writeOffs ≠ 8192)
    (hend : lengthValue s.table lc extra ≠ s.table.endValue) :
    let tw := trailingWidth (lengthValue s.table lc extra) s.dictBits.toNat
    let used := lengthUsed s.table lc + distanceUsed s.table dc tw
    let distance := pairDistance dc tw low
    used ≤ s.nbits.toNat → distance ≤ 4096 →
    exec (.ofPair lc extra dc low) s =
      .next (copyRun (pairStarted distance (lengthValue s.table lc extra + 2) used s)) := by
  intro tw used distance hu hd
  rw [exec_ofPair hlc, pairInstr_pair hend]
  change Host.Outcome.next (applySymbol used (pairEffect distance _ used) { s with decoded := none }) = _
  rw [applySymbol_applies (s := { s with decoded := none }) hroom hu, pairEffect_near hd]
  rfl

/-- The bytes of a copy of `n` bytes from `distance` behind the cursor (R152, R159, R162), and the frame. -/
theorem moveBytes_bytes {u t : State} {n distance : Nat} (ht : ∀ l, winRead t l = winRead (moveBytes n u) l)
    (hwin : t.window = (moveBytes n u).window) (h1 : 1 ≤ distance) (hd : distance ≤ u.writeOffs.toNat)
    (hsrc : u.currentOffs.toNat = u.writeOffs.toNat - distance) (hn : u.writeOffs.toNat + n ≤ 8192) :
    (∀ k < n, distance ≤ u.totalOut + k → winRead t (BitVec.ofNat 13 (u.writeOffs.toNat + k)) =
        winRead t (BitVec.ofNat 13 (u.writeOffs.toNat + k - distance))) ∧
      (∀ k < n, winRead t (BitVec.ofNat 13 (u.writeOffs.toNat + k)) =
        sourceByte u.draw (u.totalOut + k) distance t.window
          (physical u (BitVec.ofNat 13 (u.writeOffs.toNat + k - distance))).toNat) ∧
      ∀ l : BitVec 13, l.toNat < u.writeOffs.toNat ∨ u.writeOffs.toNat + n ≤ l.toNat → winRead t l = winRead u l := by
  have hlt : u.currentOffs.toNat < u.writeOffs.toNat := by omega
  have hback : u.writeOffs.toNat - u.currentOffs.toNat = distance := by omega
  have hcoord : ∀ k, u.currentOffs.toNat + k = u.writeOffs.toNat + k - distance := fun k => by omega
  refine ⟨fun k hk hown => ?_, fun k hk => ?_, fun l hl => ?_⟩
  · rw [ht, ht, winRead_moveBytes_own hlt hn hk (by rw [hback]; exact hown), hcoord]
  · rw [ht, winRead_moveBytes hlt hn hk, hback, hcoord, hwin]
  · rw [ht, winRead_moveBytes_frame hl]

/-- Settles O28: the copy engine's first case. -/
theorem pairThatFitsIsCopiedWhole : Obligations.PairThatFitsIsCopiedWhole := by
  intro lc extra dc low s hlc hge _ hend tw used distance length hu hd hfits
  have h1 : 1 ≤ distance := pairDistance_pos _ _ _
  have hroom : s.writeOffs ≠ 8192 := fun e => by
    rw [e, show (8192 : BitVec 14).toNat = 8192 from rfl] at hfits
    omega
  have hsrc := pairStarted_currentOffs (length := length) (used := used) h1 (s := s) (by omega)
  have hlen := pairStarted_remainingLen (distance := distance) (used := used) (s := s) (by omega : length ≤ 65535)
  set u := pairStarted distance length used s
  have hwu : u.writeOffs = s.writeOffs := rfl
  rcases copyRun_cases (s := u) (by rw [hwu]; omega) with ⟨_, e, h0⟩ | ⟨hn, _⟩
  · rw [hlen] at e
    have hbytes := moveBytes_bytes (u := u) (t := copyRun u) (n := length) (distance := distance)
      (fun l => by rw [e]) (by rw [e]) h1 (by rw [hwu]; omega) hsrc hfits
    refine ⟨copyRun u, exec_near_pair hlc hroom hend hu hd, ?_, ?_, ?_, ?_, ?_, hbytes⟩
    · rw [← h0, e]
      rfl
    · rw [e]
      rfl
    · rw [e]
      exact consumeBits_nbits_toNat used s
    · rw [e]
      exact writeOffs_moveBytes hfits
    · rw [e, moveBytes_currentOffs, BitVec.toNat_add, BitVec.toNat_ofNat, hsrc]
      omega
  · rw [hlen, hwu] at hn
    omega

/-- Settles O29: the copy engine's second case. -/
theorem pairThatDoesNotFitIsCut : Obligations.PairThatDoesNotFitIsCut := by
  intro lc extra dc low s hlc hge hlt _ hend tw used distance length hu hd hmax hcut
  have h1 : 1 ≤ distance := pairDistance_pos _ _ _
  have hroom : s.writeOffs ≠ 8192 := fun e => absurd hlt (by rw [e]; decide)
  have hsrc := pairStarted_currentOffs (length := length) (used := used) h1 (s := s) (by omega)
  have hlen := pairStarted_remainingLen (distance := distance) (used := used) (s := s) hmax
  set u := pairStarted distance length used s
  have hwu : u.writeOffs = s.writeOffs := rfl
  rcases copyRun_cases (s := u) (by rw [hwu]; omega) with ⟨hn, _⟩ | ⟨_, e, hfull, hrest⟩
  · rw [hlen, hwu] at hn
    omega
  · rw [hwu] at e hrest
    have hbytes := moveBytes_bytes (u := u) (t := copyRun u) (n := 8192 - s.writeOffs.toNat) (distance := distance)
      (fun l => by rw [e]; rfl) (by rw [e]; rfl) h1 (by rw [hwu]; omega) hsrc (by rw [hwu]; omega)
    obtain ⟨hown, hsource, hframe⟩ := hbytes
    refine ⟨copyRun u, exec_near_pair hlc hroom hend hu hd, ?_, ?_, ?_, ?_, ?_, hown, hsource,
      fun l hl => hframe l (.inl hl)⟩
    · rw [← hfull, e]
      rfl
    · rw [e]
      rfl
    · rw [e]
      exact consumeBits_nbits_toNat used s
    · rw [hrest, hlen]
    · rw [e, stopHalfFull_currentOffs, moveBytes_currentOffs, BitVec.toNat_add, BitVec.toNat_ofNat, hsrc]
      omega

end Sys2Proof.Machine

/-! # The memory: names of the window's bytes, and who writes and reads them

A swap and a write by logical coordinate (R64 to R66), the history half under the symbols (R65), and the independence
of registers and response from the window's bytes (R187). -/

namespace Sys2Proof.Machine

/-! ## Logical coordinates -/

/-- Distinct coordinates name distinct addresses (R63). -/
theorem physical_injective (s : State) : Function.Injective (physical s) :=
  Function.Involutive.injective (physical_physical s)

/-- Settles O35. -/
theorem windowReadsTheLastWrite : Obligations.WindowReadsTheLastWrite := by
  intro s l m b
  refine ⟨memRead_memWrite_same (physical s l) b s, fun hne => ?_⟩
  exact memRead_memWrite_other b s fun hp => hne (physical_injective s hp)

/-- The swap of R150 flips bit 12 of every coordinate and moves no byte (R66). -/
theorem winRead_doSwap (s : State) (l : BitVec 13) : winRead (doSwap s) l = winRead s (l ^^^ 4096) := by
  have hphys : physical (doSwap s) l = physical s (l ^^^ 4096) := by
    rw [physical, doSwap_offsXor, BitVec.xor_comm s.offsXor, ← BitVec.xor_assoc, physical]
  rw [winRead, hphys]
  rfl

theorem sub_half_xor_half {l : BitVec 13} (h : 4096 ≤ l.toNat) : (l - 4096) ^^^ 4096 = l := by
  have hsub : (l - 4096).toNat = l.toNat - 4096 := BitVec.toNat_sub_of_le h
  apply BitVec.eq_of_toNat_eq
  rw [BitVec.toNat_xor, hsub, show (4096 : BitVec 13).toNat = 4096 from rfl, xor_4096 (by omega), if_pos (by omega)]
  omega

theorem add_half_xor_half {l : BitVec 13} (h : l.toNat < 4096) : (l + 4096) ^^^ 4096 = l := by
  have hadd : (l + 4096).toNat = l.toNat + 4096 := by
    rw [BitVec.toNat_add]
    exact Nat.mod_eq_of_lt (Nat.add_lt_add_right h 4096)
  apply BitVec.eq_of_toNat_eq
  rw [BitVec.toNat_xor, hadd, show (4096 : BitVec 13).toNat = 4096 from rfl, xor_4096 (by omega), if_neg (by omega)]
  omega

/-- Settles O34: the flipped bit takes each half to the other. -/
theorem swapRenamesTheHalves : Obligations.SwapRenamesTheHalves := by
  intro s l
  refine ⟨fun h => ?_, fun h => ?_⟩
  · rw [winRead_doSwap, sub_half_xor_half h]
  · rw [winRead_doSwap, add_half_xor_half h]

/-! ## The history half -/

theorem Wrote.applySymbol {effect : State → State} {s : State} (h : s.writeOffs ≠ 8192 → Wrote s (effect s))
    (used : Nat) : Wrote s (applySymbol used effect s) := by
  rcases applySymbol_cases used effect s with ⟨_, e⟩ | ⟨_, _, e⟩ | ⟨hw, _, e⟩ <;> rw [e]
  · exact stopHalfFull s
  · exact stopNeedBits s
  · exact h hw

/-- A symbol writes upward from the cursor only (R65), also given by hand. -/
theorem exec_symbol_wrote {i : Instr} {s t : State} (hi : i.space = .symbol) (hle : s.writeOffs.toNat ≤ 8192)
    (ht : exec i s = .next t) : Wrote s t := by
  induction i using Instr.casesShape with
  | lit b =>
    obtain rfl := Host.Outcome.next.inj ht
    exact .applySymbol (fun hw => .literalEffect b (writeOffs_lt hle hw)) _
  | endMark lc extra =>
    obtain rfl := Host.Outcome.next.inj ht
    exact .applySymbol (fun _ => .endEffect _ s) _
  | pair lc hlc extra dc low =>
    have hdrop : Wrote s { s with decoded := none } := .of_unwritten rfl rfl fun _ => rfl
    have hle' : ({ s with decoded := none } : State).writeOffs.toNat ≤ 8192 := hle
    rw [exec_ofPair hlc] at ht
    by_cases hend : lengthValue s.table lc extra = s.table.endValue
    · rw [pairInstr_end hend] at ht
      obtain rfl := Host.Outcome.next.inj ht
      exact hdrop.trans (.applySymbol (fun _ => .endEffect _ _) _)
    · rw [pairInstr_pair hend] at ht
      obtain rfl := Host.Outcome.next.inj ht
      exact hdrop.trans (.applySymbol (fun _ => .pairEffect _ _ _ hle') _)
  | dist dc hdc low => rw [Instr.space_ofDist hdc] at hi; cases hi
  | mode | dict | isEnded | processChunk | reset | new => cases hi

/-- Settles O57: the history half lies below the cursor. -/
theorem historyHalfIsReadOnly : Obligations.HistoryHalfIsReadOnly := by
  intro i s t l hi _ hge hle ht hl
  exact (exec_symbol_wrote hi hle ht).frame l (.inl (by omega))

/-! ## What does not look at the window -/

/-- The state with other window contents and another power-on draw. -/
def withStorage (s : State) (window : List Host.Cell) (draw : Nat) : State :=
  { s with window := window, draw := draw }

/-- An operation for which the window's bytes and the draw decide nothing but the window's bytes. -/
def StorageBlind (f : State → State) : Prop :=
  ∀ s window draw, ∃ window', f (withStorage s window draw) = withStorage (f s) window' draw

namespace StorageBlind

theorem id : StorageBlind id := fun _ window _ => ⟨window, rfl⟩

theorem comp {f g : State → State} (hg : StorageBlind g) (hf : StorageBlind f) : StorageBlind (g ∘ f) :=
  fun s window draw => by
    obtain ⟨window₁, h₁⟩ := hf s window draw
    obtain ⟨window₂, h₂⟩ := hg (f s) window₁ draw
    exact ⟨window₂, (congrArg g h₁).trans h₂⟩

/-- A branch on a condition that does not look at the window. -/
theorem ite {p : State → Prop} [DecidablePred p] {f g : State → State}
    (hp : ∀ s window draw, p (withStorage s window draw) ↔ p s) (hf : StorageBlind f) (hg : StorageBlind g) :
    StorageBlind fun s => if p s then f s else g s := fun s window draw => by
  by_cases h : p s
  · simpa only [if_pos h, if_pos ((hp s window draw).mpr h)] using hf s window draw
  · simpa only [if_neg h, if_neg (mt (hp s window draw).mp h)] using hg s window draw

theorem literalEffect (b : Byte) : StorageBlind (literalEffect b) := fun _ _ _ => ⟨_, rfl⟩

/-- The bytes a copy reads go into the window and nowhere else (R152). -/
theorem moveBytes : StorageBlind fun s => moveBytes (copyCount s) s := fun _ _ _ => ⟨_, rfl⟩

theorem refill : StorageBlind refill := fun _ window _ => ⟨window, rfl⟩
theorem stopHalfFull : StorageBlind stopHalfFull := fun _ window _ => ⟨window, rfl⟩
theorem stopNeedBits : StorageBlind stopNeedBits := fun _ window _ => ⟨window, rfl⟩
theorem endEffect (used : Nat) : StorageBlind (endEffect used) := fun _ window _ => ⟨window, rfl⟩
theorem raiseFatal (code : FaultCode) : StorageBlind (raiseFatal code) := fun _ window _ => ⟨window, rfl⟩
theorem doSwap : StorageBlind doSwap := fun _ window _ => ⟨window, rfl⟩
theorem headerDone (dict : Byte) : StorageBlind (headerDone dict) := fun _ window _ => ⟨window, rfl⟩
theorem openCommand (chunk : List Byte) : StorageBlind (openCommand chunk) := fun _ window _ => ⟨window, rfl⟩
theorem closeCommand (r : Response) : StorageBlind (closeCommand r) := fun _ window _ => ⟨window, rfl⟩
theorem closeLoop : StorageBlind closeLoop := fun _ window _ => ⟨window, rfl⟩

theorem startPair (distance length used : Nat) :
    StorageBlind fun s => startCopy distance length (consumeBits used s) := fun _ window _ => ⟨window, rfl⟩

theorem copyRun : StorageBlind copyRun :=
  (ite (p := fun s => s.remainingLen = 0) (fun _ _ _ => Iff.rfl) id stopHalfFull).comp moveBytes

theorem pairEffect (distance length used : Nat) : StorageBlind (pairEffect distance length used) :=
  ite (p := fun _ => distance > 4096) (fun _ _ _ => Iff.rfl) (raiseFatal _) (copyRun.comp (startPair _ _ _))

theorem latched : StorageBlind latched :=
  comp (g := fun s => { s with start := s.writeOffs }) (fun _ window _ => ⟨window, rfl⟩)
    (ite (p := fun s => s.swapPending = true) (fun _ _ _ => Iff.rfl) doSwap id)

theorem enterLoop : StorageBlind enterLoop :=
  (ite (p := fun s => s.remainingLen = 0) (fun _ _ _ => Iff.rfl) id copyRun).comp latched

/-- The iteration takes the branch that the accumulator and the cursor choose (R176). -/
theorem iteration : StorageBlind iteration := fun s window draw => by
  have hsymbol : (Machine.refill (withStorage s window draw)).nextSymbol = (Machine.refill s).nextSymbol := rfl
  refine iteration_cases (motive := fun t => ∃ window', Machine.iteration _ = withStorage t window' draw) s
    (fun hw => ?_) (fun hw n hd => ?_) (fun hw b used hd => ?_) (fun hw distance length used hd => ?_)
    (fun hw used hd => ?_)
  · rw [iteration_full (s := withStorage s window draw) hw]
    exact (stopHalfFull.comp refill) s window draw
  · rw [iteration_needBits (s := withStorage s window draw) hw (hsymbol.trans hd)]
    exact (stopNeedBits.comp refill) s window draw
  · rw [iteration_literal (s := withStorage s window draw) hw (hsymbol.trans hd)]
    exact ((literalEffect b).comp refill) s window draw
  · rw [iteration_pair (s := withStorage s window draw) hw (hsymbol.trans hd)]
    exact ((pairEffect distance length used).comp refill) s window draw
  · rw [iteration_end (s := withStorage s window draw) hw (hsymbol.trans hd)]
    exact ((endEffect used).comp refill) s window draw

theorem decodeLoop : ∀ fuel, StorageBlind (decodeLoop fuel)
  | 0 => id
  | fuel + 1 =>
    ite (p := fun s => s.reason = .none) (fun _ _ _ => Iff.rfl) ((decodeLoop fuel).comp iteration) id

/-- The fuel is the room in the half, which is the same in both runs. -/
theorem runLoop : StorageBlind runLoop :=
  comp (g := fun s => Machine.decodeLoop (loopFuel s) s) (fun s => decodeLoop (loopFuel s) s) enterLoop

/-- The whole command: flags, header and chunk choose the way it goes (R174, R175, R144). -/
theorem processChunk (chunk : List Byte) : StorageBlind (processChunk chunk) := fun s window draw => by
  set u := withStorage s window draw
  refine processChunk_cases (motive := fun t => ∃ window', Machine.processChunk chunk u = withStorage t window' draw)
    chunk s (fun hf => ?_) (fun hf he => ?_) (fun hf he hh hc => ?_) (fun hf he hh b rest hc hb => ?_)
    (fun hf he hh hc => ?_) (fun hf he hh dict rest hc => ?_) (fun hf he hh => ?_)
  · rw [processChunk_fatal (s := u) hf]
    exact ((closeCommand _).comp (openCommand chunk)) s window draw
  · rw [processChunk_ended (s := u) hf he]
    exact ((closeCommand _).comp (openCommand chunk)) s window draw
  · rw [processChunk_ends (s := u) hf he (consumeHeader_nil (s := Machine.openCommand chunk u) hh hc)]
    exact ((closeCommand _).comp (openCommand chunk)) s window draw
  · rw [processChunk_ends (s := u) hf he (consumeHeader_unsupported (s := Machine.openCommand chunk u) hh hc hb)]
    exact ((closeCommand _).comp ((raiseFatal _).comp (openCommand chunk))) s window draw
  · rw [processChunk_ends (s := u) hf he (consumeHeader_single (s := Machine.openCommand chunk u) hh hc)]
    exact ((closeCommand _).comp (openCommand chunk)) s window draw
  · rw [processChunk_goesOn (s := u) hf he (consumeHeader_both (s := Machine.openCommand chunk u) hh hc)]
    exact (closeLoop.comp (runLoop.comp ((headerDone dict).comp (openCommand chunk)))) s window draw
  · rw [processChunk_goesOn (s := u) hf he (consumeHeader_done (s := Machine.openCommand chunk u) hh)]
    exact (closeLoop.comp (runLoop.comp (openCommand chunk))) s window draw

end StorageBlind

/-- Settles O45: no branch of the command looks at the window (`StorageBlind`). -/
theorem registersDoNotDependOnWindowBytes : Obligations.RegistersDoNotDependOnWindowBytes := by
  intro chunk s t window draw ht
  have hp := idle_of_exec_command rfl ht
  obtain rfl := processChunk_of_exec hp ht
  obtain ⟨window', h⟩ := StorageBlind.processChunk chunk s window draw
  refine ⟨_, exec_processChunk_idle (s := withStorage s window draw) hp chunk, ?_⟩
  rw [h]
  rfl

end Sys2Proof.Machine

/-! # Symbols and their bits

What the decoder returns for the bits of a symbol (R95, R96, R113, R125), the standard lookups as what R103's rule
generates, and with them the other direction: a decoded symbol encodes to the bits it was read from. -/

namespace Sys2Proof

/-! ## Decode after encode -/

/-- The class bit and the byte of an encoded literal, whatever bits follow it (R94). -/
theorem fields_encodeLiteral (b : Byte) (above : Nat) :
    let win := (encodeLiteral b).value + above * 2 ^ literalUsed
    field win 0 1 = 0 ∧ field win 1 8 = b.toNat := by
  have hb := b.isLt
  simp only [field, encodeLiteral, literalUsed]
  omega

/-- A literal's bits decode to its byte, whatever follows them (R94, R122). -/
theorem decode_encodeLiteral (b : Byte) (above : Nat) {nbits : Nat} (hn : literalUsed ≤ nbits) (T : CodeTable)
    (d : Nat) :
    decode ((encodeLiteral b).value + above * 2 ^ literalUsed) nbits T d = .sym (.literal b) literalUsed := by
  obtain ⟨hclass, hbyte⟩ := fields_encodeLiteral b above
  rw [decode, decodeWith_literal hclass, hbyte, BitVec.ofNat_toNat, BitVec.setWidth_eq, checkBits_of_le hn]

/-- A pair's bits decode to the distance and the length of R98 and R97, whatever follows them. -/
theorem decode_encodePair {c : Context} (hT : c.table.wf = true) {lc extra dc low : Nat}
    (h : pairFieldsOk c.table c.dictBits lc extra dc low = true) (above : Nat) {nbits : Nat}
    (hn : (encodePair c lc extra dc low).width ≤ nbits) :
    decode ((encodePair c lc extra dc low).value + above * 2 ^ (encodePair c lc extra dc low).width) nbits c.table
        c.dictBits =
      .sym (.pair (pairDistance dc (trailingWidth (lengthValue c.table lc extra) c.dictBits) low)
        (lengthValue c.table lc extra + 2)) (encodePair c lc extra dc low).width :=
  decodeWith_encodePair hT rfl h above hn

/-- R95: the widths of the five fields of a pair. -/
theorem encodePair_width (c : Context) (lc extra dc low : Nat) :
    (encodePair c lc extra dc low).width = 1 + c.table.lenBitsAt lc + c.table.lenExtraBitsAt lc +
      c.table.distBitsAt dc + trailingWidth (lengthValue c.table lc extra) c.dictBits :=
  (Nat.add_assoc _ _ _).symm

/-- Settles O14. -/
theorem encodedPairDecodesToItsFormulas : Obligations.EncodedPairDecodesToItsFormulas := by
  intro c lc extra dc low above nbits hT h val tw used hn
  have hwidth : (encodePair c lc extra dc low).width = used := encodePair_width c lc extra dc low
  obtain ⟨_, _, hdist⟩ := pairFieldsOk_iff.mp h
  obtain ⟨_, _, hlow⟩ := distanceFieldsOk_iff.mp hdist
  have hdecode := decode_encodePair hT h above (nbits := nbits) (by rw [hwidth]; exact hn)
  rw [hwidth, pairDistance_eq_add hlow] at hdecode
  exact hdecode

/-- Settles O15, by the shape of the instruction. -/
theorem encodedSymbolDecodesToItself : Obligations.EncodedSymbolDecodesToItself := by
  intro c i b above nbits hT hi hspace hb hn
  induction i using Instr.casesShape with
  | lit byte =>
    obtain rfl := Encoding.bits.inj hb
    exact decodeInstr_encodeLiteral byte above hn _ _
  | endMark lc extra =>
    obtain rfl := Encoding.bits.inj hb
    exact decodeInstr_encodeLength hT hi above hn _
  | pair lc hlc extra dc low =>
    rw [Instr.wf_ofPair c hlc] at hi
    rw [encode_ofPair c hlc] at hb
    obtain rfl := Encoding.bits.inj hb
    exact decodeInstr_encodePair hT hi above hn
  | dist dc hdc low =>
    rw [Instr.space_ofDist hdc] at hspace
    cases hspace
  | mode | dict | isEnded | processChunk | reset | new => cases hspace

/-! ## The assembling rule of R113 -/

/-- The fields R113 gives a pair, and where it gives none. -/
theorem symbolFields_pair {c : Context} {d l : Nat} {i : Instr} (h : symbolFields c (.pair d l) = some i) :
    let tw := trailingWidth (l - 2) c.dictBits
    d ≠ 0 ∧ 2 ≤ l ∧ ∃ lc extra, lengthFieldsOf c.table (l - 2) = some (lc, extra) ∧
      i = .ofPair lc extra ((d - 1) / 2 ^ tw) ((d - 1) % 2 ^ tw) := by
  simp only [symbolFields, Nat.shiftRight_eq_div_pow] at h
  split at h
  · cases h
  · next hok =>
    obtain ⟨⟨lc, extra⟩, hf, rfl⟩ := Option.map_eq_some_iff.mp h
    exact ⟨by omega, by omega, lc, extra, hf, rfl⟩

/-- Distance code and trailing field of R113 give the distance back (R98). -/
theorem pairDistance_div_mod {d : Nat} (h : d ≠ 0) (tw : Nat) :
    pairDistance ((d - 1) / 2 ^ tw) tw ((d - 1) % 2 ^ tw) = d := by
  rw [pairDistance_eq_add (Nat.mod_lt _ (Nat.two_pow_pos tw)), Nat.div_add_mod']
  omega

/-- Settles O58, by the kind of the symbol. -/
theorem assembledSymbolDecodesToItself : Obligations.AssembledSymbolDecodesToItself := by
  intro c sym i b above nbits hT hi hb hn
  obtain ⟨hfields, hwf⟩ := instrOf_spec hi
  cases sym with
  | literal byte =>
    obtain rfl := Option.some.inj hfields
    obtain rfl := Encoding.bits.inj hb
    exact decode_encodeLiteral byte above hn _ _
  | endMark =>
    obtain ⟨⟨lc, extra⟩, _, rfl⟩ := Option.map_eq_some_iff.mp hfields
    obtain rfl := Encoding.bits.inj hb
    exact decodeWith_encodeLength hT hwf above hn _
  | pair d l =>
    obtain ⟨hd, hl, lc, extra, hlen, rfl⟩ := symbolFields_pair hfields
    obtain ⟨hlc, hval, _⟩ := lengthFieldsOf_spec hlen
    rw [Instr.wf_ofPair c hlc] at hwf
    rw [encode_ofPair c hlc] at hb
    obtain rfl := Encoding.bits.inj hb
    rw [decode_encodePair hT hwf above hn, hval, pairDistance_div_mod hd, Nat.sub_add_cancel hl]

/-- R113 has an instruction for a symbol whose fields are well-formed. -/
theorem instrOf_of_fields {c : Context} {sym : Symbol} {i : Instr} (h : symbolFields c sym = some i)
    (hwf : i.wf c = true) : instrOf c sym = some i := by
  rw [instrOf, h, Option.filter_some, hwf, if_pos rfl]

/-! ## The standard table -/

/-- Settles O7. -/
theorem standardLookupsAreGenerated : Obligations.StandardLookupsAreGenerated :=
  ⟨by decide +kernel, by decide +kernel⟩

/-- Settles O8. -/
theorem sampleWordsDecode : Obligations.SampleWordsDecode :=
  ⟨by decide +kernel, by decide +kernel, by decide +kernel, by decide +kernel, by decide +kernel, by decide +kernel⟩

/-- Every length code and every distance code of the standard table is named by its lookup (R105, R107). -/
theorem standardTable_codes : (∀ lc < 16, standardTable.lenLookup.contains lc = true) ∧
    ∀ dc < 64, standardTable.distLookup.contains dc = true :=
  ⟨by decide +kernel, by decide +kernel⟩

/-- The standard length codes reach every length value up to the sentinel (R104, R114). -/
theorem lengthFieldsOf_standardTable : ∀ val < 518, (lengthFieldsOf standardTable val).isSome = true := by
  decide +kernel

theorem lengthFieldsOf_standardTable_end : lengthFieldsOf standardTable standardTable.endValue = some (15, 255) := by
  decide +kernel

/-- With the standard table the ranges of the fields alone decide (R95, R97). -/
theorem pairFieldsOk_standardTable {d lc extra dc low : Nat} (hlc : lc < 16)
    (hextra : extra < 2 ^ standardTable.lenExtraBitsAt lc)
    (hend : lengthValue standardTable lc extra ≠ standardTable.endValue) (hdc : dc < 64)
    (hlow : low < 2 ^ trailingWidth (lengthValue standardTable lc extra) d) :
    pairFieldsOk standardTable d lc extra dc low = true :=
  pairFieldsOk_iff.mpr ⟨lengthFieldsOk_iff.mpr ⟨hlc, standardTable_codes.1 lc hlc, hextra⟩, hend,
    distanceFieldsOk_iff.mpr ⟨hdc, standardTable_codes.2 dc hdc, hlow⟩⟩

/-- R113 for a pair of a standard length and a distance that the distance codes reach. -/
theorem instrOf_standard_pair {c : Context} (hc : c.table = standardTable) {d l : Nat} (hl : 2 ≤ l) (hl' : l ≤ 518)
    (hd : 1 ≤ d) (hd' : d ≤ 64 * 2 ^ trailingWidth (l - 2) c.dictBits) :
    ∃ lc extra, lc < 16 ∧ lengthValue standardTable lc extra = l - 2 ∧
      instrOf c (.pair d l) = some (.ofPair lc extra ((d - 1) / 2 ^ trailingWidth (l - 2) c.dictBits)
        ((d - 1) % 2 ^ trailingWidth (l - 2) c.dictBits)) := by
  set tw := trailingWidth (l - 2) c.dictBits
  obtain ⟨⟨lc, extra⟩, hlen⟩ := Option.isSome_iff_exists.mp (lengthFieldsOf_standardTable (l - 2) (by omega))
  obtain ⟨hlc, hval, hextra⟩ := lengthFieldsOf_spec hlen
  have hdc : (d - 1) / 2 ^ tw < 64 := Nat.div_lt_of_lt_mul (by rw [Nat.mul_comm]; omega)
  have hend : lengthValue standardTable lc extra ≠ standardTable.endValue := by
    rw [hval]
    change l - 2 ≠ 517
    omega
  refine ⟨lc, extra, hlc, hval, instrOf_of_fields ?_ ?_⟩
  · have hok : ¬ (d = 0 ∨ l < 2 ∨ 64 ≤ (d - 1) / 2 ^ tw) := by omega
    simp only [symbolFields, Nat.shiftRight_eq_div_pow, hc, hlen, Option.map_some]
    exact if_neg hok
  · rw [Instr.wf_ofPair c hlc, hc]
    exact pairFieldsOk_standardTable hlc hextra hend hdc (by rw [hval]; exact Nat.mod_lt _ (Nat.two_pow_pos tw))

/-- Settles O59. -/
theorem standardSymbolsCanBeAssembled : Obligations.StandardSymbolsCanBeAssembled := by
  intro c hc
  refine ⟨fun b => instrOf_of_fields rfl rfl, instrOf_of_fields ?_ ?_,
    fun d l hl hl' hd hd' => instrOf_standard_pair hc hl hl' hd hd'⟩
  · rw [symbolFields, hc, lengthFieldsOf_standardTable_end]
    rfl
  · change endFieldsOk c.table 15 255 = true
    rw [hc]
    decide +kernel

/-! ## Encode after decode

The encoder writes one pattern for a code, so a decoded symbol encodes to the bits it was read from exactly where no
code has a second pattern. R42 does not ask for that; R103's rule gives it. -/

theorem getD_mem {l : List Nat} {b : Nat} (h : b < l.length) : l.getD b 0 ∈ l := by
  rw [List.getD_eq_getElem _ _ h]
  exact List.getElem_mem h

/-- Every index of the lookup shows, on the width of its code, the pattern that the encoder writes for the code. -/
def SinglePatterns (lookup bits : List Nat) : Prop :=
  ∀ b < 256, codePattern lookup (lookup.getD b 0) (bits.getD (lookup.getD b 0) 0) =
    b % 2 ^ bits.getD (lookup.getD b 0) 0

theorem generateLookup_length (patterns bits : List Nat) : (generateLookup patterns bits).length = 256 := by
  simp [generateLookup]

/-- R103: a byte ends in the pattern of its entry. -/
theorem generateLookup_pattern {patterns bits : List Nat} {b : Nat} (hb : b < 256)
    (hcode : (generateLookup patterns bits).getD b 0 < (patterns.zip bits).length) :
    b % 2 ^ bits.getD ((generateLookup patterns bits).getD b 0) 0 =
      patterns.getD ((generateLookup patterns bits).getD b 0) 0 := by
  have hentry : (generateLookup patterns bits).getD b 0 =
      (patterns.zip bits).findIdx fun c => b % 2 ^ c.2 == c.1 := by
    rw [generateLookup, List.getD_eq_getElem _ _ (by simpa using hb)]
    simp
  rw [hentry] at hcode ⊢
  have hfound := List.findIdx_getElem (w := hcode)
  rw [List.length_zip] at hcode
  rw [List.getD_eq_getElem _ _ (by omega), List.getD_eq_getElem _ _ (by omega)]
  simpa using hfound

/-- A lookup that R103's rule generates from a complete code has no second pattern for a code. -/
theorem singlePatterns_generateLookup {patterns bits : List Nat}
    (hcodes : ∀ b, (generateLookup patterns bits).getD b 0 < (patterns.zip bits).length) :
    SinglePatterns (generateLookup patterns bits) bits := by
  intro b hb
  set lookup := generateLookup patterns bits with hlookup
  have hlength : lookup.length = 256 := generateLookup_length patterns bits
  have hidx : lookup.idxOf (lookup.getD b 0) < lookup.length := List.idxOf_lt_length_of_mem (getD_mem (by omega))
  have hfirst : lookup.getD (lookup.idxOf (lookup.getD b 0)) 0 = lookup.getD b 0 := by
    rw [List.getD_eq_getElem _ _ hidx, List.getElem_idxOf]
  have hpattern := generateLookup_pattern (by omega) (hcodes (lookup.idxOf (lookup.getD b 0)))
  rw [← hlookup, hfirst] at hpattern
  rw [codePattern, hpattern, ← generateLookup_pattern hb (hcodes b)]

theorem singlePatterns_standardTable : SinglePatterns standardTable.lenLookup standardTable.lenBits ∧
    SinglePatterns standardTable.distLookup standardTable.distBits := by
  obtain ⟨hlen, hdist⟩ := standardLookupsAreGenerated
  constructor
  · rw [← hlen]
    refine singlePatterns_generateLookup fun b => ?_
    rw [hlen]
    exact standardTable.wf_lenLookup standardTable_wf b
  · rw [← hdist]
    refine singlePatterns_generateLookup fun b => ?_
    rw [hdist]
    exact standardTable.wf_distLookup standardTable_wf b

/-- Two adjacent fields are one field. -/
theorem field_append (v lo m n : Nat) : field v lo (m + n) = field v lo m + field v (lo + m) n * 2 ^ m := by
  simp only [field, Nat.pow_add, ← Nat.div_div_eq_div_mul]
  rw [Nat.mod_mul, Nat.mul_comm (2 ^ m)]

theorem field_class_one {win : Nat} (h : field win 0 1 ≠ 0) : field win 0 1 = 1 := by
  have := field_lt win 0 1
  omega

/-- The literal read from a window encodes to its bits (R94, R122). -/
theorem encodeLiteral_field {win : Nat} (h : field win 0 1 = 0) :
    encodeLiteral (BitVec.ofNat 8 (field win 1 8)) = { value := win % 2 ^ literalUsed, width := literalUsed } := by
  have hvalue : field win 1 8 * 2 = win % 2 ^ literalUsed := by
    rw [← field_zero_lo, show literalUsed = 1 + 8 from rfl, field_append, h, Nat.zero_add, Nat.zero_add, Nat.pow_one]
  rw [encodeLiteral, BitVec.toNat_ofNat, Nat.mod_eq_of_lt (field_lt win 1 8), hvalue]

section wf

variable {T : CodeTable} (hT : T.wf = true)
include hT

/-- The entry of an 8-bit index is one the lookup names (R42 item 1, R123). -/
theorem lenLookup_contains_field (win lo : Nat) : T.lenLookup.contains (T.lenLookupAt (field win lo 8)) = true := by
  obtain ⟨_, _, _, _, hlength, _, _⟩ := T.wf_counts hT
  exact List.contains_iff_mem.mpr (getD_mem (by rw [hlength]; exact field_lt win lo 8))

theorem distLookup_contains_field (win lo : Nat) :
    T.distLookup.contains (T.distLookupAt (field win lo 8)) = true := by
  obtain ⟨_, _, _, _, _, _, hlength⟩ := T.wf_counts hT
  exact List.contains_iff_mem.mpr (getD_mem (by rw [hlength]; exact field_lt win lo 8))

theorem lengthFieldsOk_lengthPart (win : Nat) :
    lengthFieldsOk T (lengthPart T win).code (lengthPart T win).extra = true :=
  lengthFieldsOk_iff.mpr ⟨lengthPart_code_lt hT win, lenLookup_contains_field hT win 1, lengthPart_extra_lt win⟩

theorem distanceFieldsOk_distancePart (d win : Nat) (len : LengthPart) :
    distanceFieldsOk T (trailingWidth len.val d) (distancePart T d win len).code (distancePart T d win len).low =
      true :=
  distanceFieldsOk_iff.mpr
    ⟨distancePart_code_lt hT d win len, distLookup_contains_field hT win len.used, field_lt _ _ _⟩

/-- The length part read from a window encodes to its bits (R95 fields 1 to 3, R123). -/
theorem encodeLength_lengthPart (hsingle : SinglePatterns T.lenLookup T.lenBits) {win : Nat}
    (hclass : field win 0 1 ≠ 0) :
    encodeLength T (lengthPart T win).code (lengthPart T win).extra =
      { value := field win 0 (lengthPart T win).used, width := (lengthPart T win).used } := by
  set lc := (lengthPart T win).code with hlc
  have hpattern : codePattern T.lenLookup lc (T.lenBitsAt lc) = field win 1 (T.lenBitsAt lc) :=
    (hsingle (field win 1 8) (field_lt win 1 8)).trans (field_low (T.wf_lenBits hT (lengthPart_code_lt hT win)).2)
  have hsplit : field win 0 (lengthPart T win).used =
      1 + field win 1 (T.lenBitsAt lc) * 2 + (lengthPart T win).extra * 2 ^ (1 + T.lenBitsAt lc) := by
    change field win 0 (1 + T.lenBitsAt lc + T.lenExtraBitsAt lc) = _
    rw [field_append, field_append, field_class_one hclass, Nat.zero_add, Nat.zero_add, Nat.pow_one]
    rfl
  rw [hsplit, encodeLength, hpattern]
  rfl

/-- The distance part read from a window encodes to its bits (R95 fields 4 and 5, R125). -/
theorem encodeDistance_distancePart (hsingle : SinglePatterns T.distLookup T.distBits) (d win : Nat)
    (len : LengthPart) :
    let dist := distancePart T d win len
    let tw := trailingWidth len.val d
    encodeDistance T tw dist.code dist.low =
      { value := field win len.used (distanceUsed T dist.code tw), width := distanceUsed T dist.code tw } := by
  intro dist tw
  have hpattern : codePattern T.distLookup dist.code (T.distBitsAt dist.code) =
      field win len.used (T.distBitsAt dist.code) :=
    (hsingle (field win len.used 8) (field_lt win len.used 8)).trans
      (field_low (T.wf_distBits hT (distancePart_code_lt hT d win len)).2)
  rw [distanceUsed, field_append, encodeDistance, hpattern]
  rfl

/-- The pair read from a window encodes to its bits (R95, R125). -/
theorem encodePair_parts (hlen : SinglePatterns T.lenLookup T.lenBits) (hdist : SinglePatterns T.distLookup T.distBits)
    {c : Context} (hc : c.table = T) {win : Nat} (hclass : field win 0 1 ≠ 0) :
    let len := lengthPart T win
    let dist := distancePart T c.dictBits win len
    encodePair c len.code len.extra dist.code dist.low = { value := win % 2 ^ dist.used, width := dist.used } := by
  subst hc
  intro len dist
  have hused : dist.used = len.used + distanceUsed c.table dist.code (trailingWidth len.val c.dictBits) := rfl
  rw [encodePair, show lengthValue c.table len.code len.extra = len.val from rfl,
    encodeLength_lengthPart hT hlen hclass, encodeDistance_distancePart hT hdist c.dictBits win len, Bits.append, hused,
    ← field_zero_lo, field_append, Nat.zero_add]

end wf

/-- Settles O17: R103's rule leaves no code of the standard table a second pattern. -/
theorem encodeOfDecodeIsTheBits : Obligations.EncodeOfDecodeIsTheBits := by
  intro win nbits d lenVal i used h
  have hT := standardTable_wf
  obtain ⟨hlen, hdist⟩ := singlePatterns_standardTable
  unfold decodeInstr at h
  rcases decodeWith_cases Instr.lit (fun len => .endMark len.code len.extra)
    (fun len dist => .ofPair len.code len.extra dist.code dist.low) win nbits standardTable d with
    ⟨hclass, e⟩ | ⟨hclass, hend, e⟩ | ⟨hclass, hend, e⟩ <;> rw [e] at h <;> obtain ⟨rfl, rfl, _⟩ := checkBits_sym h
  · exact ⟨rfl, congrArg Encoding.bits (encodeLiteral_field hclass)⟩
  · refine ⟨endFieldsOk_iff.mpr ⟨lengthFieldsOk_lengthPart hT win, hend⟩, congrArg Encoding.bits ?_⟩
    rw [encodeLength_lengthPart hT hlen hclass, field_zero_lo]
  · have hlc := lengthPart_code_lt hT win
    rw [Instr.wf_ofPair _ hlc, encode_ofPair _ hlc]
    exact ⟨pairFieldsOk_iff.mpr ⟨lengthFieldsOk_lengthPart hT win, hend, distanceFieldsOk_distancePart hT d win _⟩,
      congrArg Encoding.bits (encodePair_parts hT hlen hdist rfl hclass)⟩

end Sys2Proof

namespace Sys2Proof.Machine

/-! ## The header bytes, END in pair fields, and DIST without its pair -/

/-- Settles O18. -/
theorem modeZeroGoesOnToDict : Obligations.ModeZeroGoesOnToDict := by
  intro s h
  rcases exec_mode_cases h 0 with ⟨_, e⟩ | ⟨hb, _⟩
  · exact e
  · exact absurd rfl hb

/-- Settles O20. -/
theorem dictIsStoredVerbatim : Obligations.DictIsStoredVerbatim := fun b _ h => exec_dict_outstanding h b

/-- Settles O30: with nothing in `decoded` to drop, the pair operation is END's. -/
theorem pairFieldsOfTheSentinelAreEnd : Obligations.PairFieldsOfTheSentinelAreEnd := by
  intro lc extra dc low s hlc hd hend
  have hdrop : { s with decoded := none } = s := by rw [← hd]
  rw [exec_ofPair hlc, pairInstr_end hend, hdrop]
  rfl

/-- A distance sub-field in a window that holds a literal or the end marker (R111). -/
theorem distInstr_outside_pair {s : State}
    (h : field s.acc.toNat 0 1 = 0 ∨ (lengthPart s.table s.acc.toNat).val = s.table.endValue) (dc low : Nat) :
    distInstr dc low s = .fault .distanceOutsidePair := if_pos h

/-- A distance sub-field in a window that holds a pair: the decoder's answer, or `NeedBits` (R125, R126). -/
theorem distInstr_pair {s : State} (hclass : field s.acc.toNat 0 1 = 1)
    (hend : (lengthPart s.table s.acc.toNat).val ≠ s.table.endValue) (dc low : Nat) :
    let dist := distanceResult s.table s.dictBits.toNat (lengthPart s.table s.acc.toNat) dc low
    distInstr dc low s =
      .next (if dist.used > s.nbits.toNat then stopNeedBits s else { s with decoded := some dist }) := by
  have hpair : ¬ (field s.acc.toNat 0 1 = 0 ∨ (lengthPart s.table s.acc.toNat).val = s.table.endValue) := by
    rintro (h | h)
    · omega
    · exact hend h
  exact if_neg hpair

/-- Settles O32. -/
theorem distanceFieldStopsWithoutItsPair : Obligations.DistanceFieldStopsWithoutItsPair := by
  intro dc low s hdc len tw
  rw [exec_ofDist hdc]
  refine ⟨fun hclass hend hbits => ?_, fun h => distInstr_outside_pair h dc low⟩
  have hused : s.nbits.toNat < (distanceResult s.table s.dictBits.toNat len dc low).used := by
    rw [Nat.add_assoc] at hbits
    exact hbits
  rw [distInstr_pair hclass hend, if_pos hused]
  rfl

end Sys2Proof.Machine

namespace Sys2Proof

/-! ## What the Symbol Decoder answers (R120 to R131) -/

/-- A pair the decoder returns: its window, and that it is the distance part with its bits (R125, R126). -/
theorem decode_pair {win nbits d dist len used : Nat} {T : CodeTable}
    (h : decode win nbits T d = .sym (.pair dist len) used) :
    field win 0 1 ≠ 0 ∧ (lengthPart T win).val ≠ T.endValue ∧ used ≤ nbits ∧
      let part := distancePart T d win (lengthPart T win)
      part.distance = dist ∧ part.length = len ∧ part.used = used := by
  unfold decode at h
  rcases decodeWith_cases Symbol.literal (fun _ => .endMark) (fun _ dist => .pair dist.distance dist.length)
    win nbits T d with ⟨_, e⟩ | ⟨_, _, e⟩ | ⟨hclass, hval, e⟩ <;> rw [e] at h <;>
    obtain ⟨hsym, rfl, hused⟩ := checkBits_sym h
  · cases hsym
  · cases hsym
  · obtain ⟨rfl, rfl⟩ := Symbol.pair.inj hsym
    exact ⟨hclass, hval, hused, rfl, rfl, rfl⟩

section wf

variable {T : CodeTable} (hT : T.wf = true)
include hT

/-- The bits of a pair (R129): a length part of 2 to 17, a code of 1 to 8 and a trailing field of 0 to 255. -/
theorem distancePart_used_range (win : Nat) {d : Nat} (hd : d ≤ 255) :
    2 ≤ (distancePart T d win (lengthPart T win)).used ∧ (distancePart T d win (lengthPart T win)).used ≤ 280 := by
  have hlen := lengthPart_used_range hT win
  have hcode := T.wf_distBits hT (distancePart_code_lt hT d win (lengthPart T win))
  have htrailing : trailingWidth (lengthPart T win).val d ≤ 255 := by
    unfold trailingWidth
    split <;> omega
  rw [distancePart_eq_result, distanceResult_used, distanceUsed]
  omega

/-- The range of the distance (R129): the trailing field stays below the code's step `2 ^ tw`. -/
theorem distancePart_distance_range (d win : Nat) (len : LengthPart) :
    1 ≤ (distancePart T d win len).distance ∧
      (distancePart T d win len).distance ≤ 64 * 2 ^ trailingWidth len.val d := by
  have hcode := distancePart_code_lt hT d win len
  have hlow : (distancePart T d win len).low < 2 ^ trailingWidth len.val d := field_lt _ _ _
  rw [distancePart_eq_result, distanceResult_distance]
  refine ⟨pairDistance_pos _ _ _, ?_⟩
  rw [pairDistance_eq_add hlow]
  have hstep : ((distancePart T d win len).code + 1) * 2 ^ trailingWidth len.val d ≤
      64 * 2 ^ trailingWidth len.val d := Nat.mul_le_mul_right _ hcode
  rw [Nat.add_mul] at hstep
  omega

/-- Every answer is the one comparison of R126, on a number of bits from 2 to 280 (R129). -/
theorem decodeWith_eq_checkBits {α : Type} (f : Byte → α) (g : LengthPart → α) (k : LengthPart → DistancePart → α)
    (win nbits : Nat) {d : Nat} (hd : d ≤ 255) :
    ∃ a used, decodeWith f g k win nbits T d = checkBits nbits used a ∧ 2 ≤ used ∧ used ≤ 280 := by
  rcases decodeWith_cases f g k win nbits T d with ⟨_, e⟩ | ⟨_, _, e⟩ | ⟨_, _, e⟩
  · exact ⟨_, _, e, by decide⟩
  · obtain ⟨hlow, hhigh⟩ := lengthPart_used_range hT win
    exact ⟨_, _, e, hlow, by omega⟩
  · exact ⟨_, _, e, distancePart_used_range hT win hd⟩

end wf

/-- Settles O11: the bits are those of the one comparison, length and distance those of the distance part. -/
theorem decodeResultsStayInRange : Obligations.DecodeResultsStayInRange := by
  intro win nbits T d hT hd
  obtain ⟨a, bits, hcheck, hlow, hhigh⟩ := decodeWith_eq_checkBits hT Symbol.literal (fun _ => .endMark)
    (fun _ dist => .pair dist.distance dist.length) win nbits hd
  refine ⟨fun sym used h => ?_, fun n h => ?_, fun dist len used h => ?_⟩
  · obtain ⟨_, rfl, hused⟩ := checkBits_sym (hcheck.symm.trans h)
    exact ⟨hlow, hused, hhigh⟩
  · obtain ⟨hmissing, rfl⟩ := checkBits_needBits (hcheck.symm.trans h)
    omega
  · obtain ⟨_, _, _, rfl, rfl, _⟩ := decode_pair h
    have hval := lengthPart_val_le hT win
    have hlength : (distancePart T d win (lengthPart T win)).length = (lengthPart T win).val + 2 := rfl
    rw [hlength, Nat.add_sub_cancel]
    exact ⟨by omega, by omega, distancePart_distance_range hT d win _⟩

/-- Settles O12: R130 holds of every answer built from the fields of a symbol. -/
theorem symbolDependsOnUsedBitsOnly : Obligations.SymbolDependsOnUsedBitsOnly :=
  fun _ _ _ _ _ _ _ _ hT h hwin hused => decodeWith_congr hT h hwin hused

/-- Settles O13: a symbol read from the padded window would, by R130, be the one the true window holds, which needs
more bits than are valid. -/
theorem paddingNeverFakesASymbol : Obligations.PaddingNeverFakesASymbol := by
  intro win win' N nbits T d sym used hT h hshort hwin
  cases hpadded : decode win' nbits T d with
  | needBits n => exact ⟨n, rfl⟩
  | sym sym' used' =>
    have hused : used ≤ N := (decodeWith_used h).2
    have hused' : used' ≤ nbits := (decodeWith_used hpadded).2
    have htrue : decode win N T d = .sym sym' used' :=
      decodeWith_congr hT hpadded (mod_two_pow_congr hwin hused').symm (by omega)
    obtain ⟨_, rfl⟩ := DecodeResult.sym.inj (h.symm.trans htrue)
    omega

/-- Settles O9. -/
theorem literalDecodesInNineBits : Obligations.LiteralDecodesInNineBits :=
  fun _ nbits T d hclass => decodeWith_literal hclass nbits T d

/-- Settles O10: the length value and the bits it takes are those of the length part. -/
theorem endMarkerDecodesWithoutDistance : Obligations.EndMarkerDecodesWithoutDistance := by
  intro win nbits T d hclass lc w e hend
  have hpair : field win 0 1 ≠ 0 := by omega
  have hval : (lengthPart T win).val = T.endValue := hend
  exact decodeWith_end hpair hval nbits d

end Sys2Proof

namespace Sys2Proof.Machine

/-! ## The distance part of a pair, as an instruction (R125) -/

/-- DIST in the window of a pair whose bits are all there keeps the decoder's answer and writes no register. -/
theorem exec_ofDist_pair {s : State} {dc : Nat} (hdc : dc < 64) (low : Nat) (hclass : field s.acc.toNat 0 1 ≠ 0)
    (hend : (lengthPart s.table s.acc.toNat).val ≠ s.table.endValue)
    (hbits : (distanceResult s.table s.dictBits.toNat (lengthPart s.table s.acc.toNat) dc low).used ≤ s.nbits.toNat) :
    exec (.ofDist dc low) s = .next { s with
      decoded := some (distanceResult s.table s.dictBits.toNat (lengthPart s.table s.acc.toNat) dc low) } := by
  rw [exec_ofDist hdc, distInstr_pair (field_class_one hclass) hend, if_neg (Nat.not_lt.mpr hbits)]

/-- Settles O31. -/
theorem distanceFieldYieldsThePair : Obligations.DistanceFieldYieldsThePair := by
  intro dc low s hdc hclass len tw used hend hbits
  have hused : used = (distanceResult s.table s.dictBits.toNat len dc low).used := Nat.add_assoc _ _ _
  rw [exec_ofDist_pair hdc low (by omega) hend (hused ▸ hbits), hused]
  rfl

/-- Settles O50: the first stage is the sub-field with the fields of the decoder's own distance part. -/
theorem stagedPairIsTheDecodedPair : Obligations.StagedPairIsTheDecodedPair := by
  intro s dist len used hT h
  obtain ⟨hclass, hend, hbits, hdist, hlen, rfl⟩ := decode_pair h
  set part := distancePart s.table s.dictBits.toNat s.acc.toNat (lengthPart s.table s.acc.toNat)
  have hcode : part.code < 64 := distancePart_code_lt hT _ _ _
  have hstage : decodeStage s.acc.toNat s.nbits.toNat s.table s.dictBits.toNat =
      .sym (.ofDist part.code part.low) part.used := by
    rw [decodeStage, decodeWith_pair hclass hend, checkBits_of_le hbits]
  exact ⟨.ofDist part.code part.low, part, hstage, Instr.space_ofDist hcode _,
    exec_ofDist_pair hcode part.low hclass hend hbits, hdist, hlen, rfl⟩

end Sys2Proof.Machine

/-! # The header of a stream, and what a step runs

MODE and DICT as instructions and inside PROCESS_CHUNK (R141 to R144, R206), and the instruction each step runs
(R174, R176, R182). -/

namespace Sys2Proof.Machine

/-! ## The chunk position never goes back -/

theorem pos_le_refillFrom : ∀ (bytes : List Byte) (r : RefillResult), r.pos ≤ (refillFrom bytes r).pos
  | [], _ => le_rfl
  | b :: rest, r => by
    rw [refillFrom]
    split
    · have ih := pos_le_refillFrom rest
        { acc := r.acc ||| (b.setWidth 64 <<< r.nbits.toNat), nbits := r.nbits + 8, pos := r.pos + 1 }
      exact (Nat.le_succ r.pos).trans ih
    · exact le_rfl

/-- A refill takes bytes of the chunk only forward (R153), from any state. -/
theorem pos_le_refill (s : State) : s.pos ≤ (refill s).pos :=
  pos_le_refillFrom (s.chunk.drop s.pos) { acc := s.acc, nbits := s.nbits, pos := s.pos }

theorem pairEffect_pos (distance length used : Nat) (s : State) : (pairEffect distance length used s).pos = s.pos := by
  by_cases h : distance > 4096
  · rw [pairEffect_far h, raiseFatal_pos]
  · rw [pairEffect_near (by omega), copyRun_pos, moveBytes_pos, startCopy_pos, consumeBits_pos]

/-- Of the parts of an iteration only the refill moves the position (R176). -/
theorem pos_le_iteration (s : State) : s.pos ≤ (iteration s).pos := by
  have hrefill := pos_le_refill s
  exact iteration_cases (motive := fun t => s.pos ≤ t.pos) s (fun _ => hrefill) (fun _ _ _ => hrefill)
    (fun _ _ _ _ => hrefill) (fun _ _ _ _ _ => hrefill.trans_eq (pairEffect_pos _ _ _ _).symm)
    (fun _ _ _ => hrefill)

theorem pos_le_decodeLoop : ∀ (fuel : Nat) (s : State), s.pos ≤ (decodeLoop fuel s).pos
  | 0, _ => le_rfl
  | fuel + 1, s => by
    by_cases h : s.reason = .none
    · rw [decodeLoop_of_going h]
      exact (pos_le_iteration s).trans (pos_le_decodeLoop fuel _)
    · rw [decodeLoop_of_stopped h]

@[simp] theorem latched_pos (s : State) : (latched s).pos = s.pos := by rw [latched_eq]

/-- Step 2 of R174 takes no byte of the chunk. -/
@[simp] theorem enterLoop_pos (s : State) : (enterLoop s).pos = s.pos := by
  rw [enterLoop_eq]
  split
  · exact latched_pos s
  · rw [copyRun_pos, moveBytes_pos, latched_pos]

theorem pos_le_runLoop (s : State) : s.pos ≤ (runLoop s).pos :=
  (enterLoop_pos s).symm.trans_le (pos_le_decodeLoop _ _)

/-! ## The header through PROCESS_CHUNK -/

/-- The header outstanding and both its bytes there, the loop starts behind them (R144, R174). -/
theorem processChunk_header {s : State} (hf : s.fatal = false) (he : s.ended = false)
    (hh : s.headerOutstanding = true) (dict : Byte) (rest : List Byte) :
    processChunk (0 :: dict :: rest) s =
      closeLoop (runLoop (headerDone dict (openCommand (0 :: dict :: rest) s))) :=
  processChunk_goesOn hf he (consumeHeader_both (s := openCommand (0 :: dict :: rest) s) hh rfl)

/-- Settles O24: the header is stored before the loop; the loop writes none of it and moves the position of R144, which
is 2, only forward. -/
theorem headerIsConsumedAsOneUnit : Obligations.HeaderIsConsumedAsOneUnit := by
  intro dict rest s _ hready hn
  obtain ⟨hp, hf, he⟩ := hready
  set u := headerDone dict (openCommand (0 :: dict :: rest) s)
  have hframe := runLoop_frame u
  have hexec : exec (.processChunk (0 :: dict :: rest)) s = .next (closeLoop (runLoop u)) := by
    rw [exec_processChunk_idle hp, processChunk_header hf he (headerOutstanding_of_needMode hn)]
  refine ⟨_, loopResponse (runLoop u), hexec, ?_, ?_, ?_, rfl, ?_⟩
  · exact hframe.dictBits.trans (latched_dictBits u)
  · exact hframe.needMode.trans (latched_needMode u)
  · exact hframe.needDict.trans (latched_needDict u)
  · exact pos_le_runLoop u

/-! ## The header bytes as instructions -/

/-- Settles O19. -/
theorem modeNonzeroRaisesFatal : Obligations.ModeNonzeroRaisesFatal := by
  intro b s h hb
  rcases exec_mode_cases h b with ⟨h0, _⟩ | ⟨_, e⟩
  · exact absurd h0 hb
  · exact e

/-- Settles O21. -/
theorem headerBytesDoNothingAfterTheHeader : Obligations.HeaderBytesDoNothingAfterTheHeader :=
  fun b _ h => ⟨exec_mode_done h b, exec_dict_done h b⟩

/-! ## What a step runs -/

/-- Settles O49, phase by phase. -/
theorem stepRunsTheDecodedInstruction : Obligations.StepRunsTheDecodedInstruction := by
  refine ⟨?command, ?mode, ?dict, ?stage, ?pair⟩
  case command => exact fun _ _ _ hp hport => step_idle_command hp hport
  case mode => exact fun _ _ hp hr hc => step_modeByte hp hr hc
  case dict => exact fun _ _ hp hc => step_dictByte hp hc
  case stage => exact fun _ _ _ hp hr hd hroom hi => step_loop_stage hp hr hd hroom hi
  case pair => exact fun _ _ hp hr hd => step_loop_pair hp hr hd

end Sys2Proof.Machine

/-! # The symbols against the reference decoder

END and the far pair (R156, R157); and, byte by byte, that a literal, a pair and a resumed copy append to the output
what the reference decoder of R186 appends. -/

namespace Sys2Proof.Machine

/-! ## END and the far pair -/

/-- Settles O26. -/
theorem endMarkerEndsTheStream : Obligations.EndMarkerEndsTheStream := by
  intro lc extra s hroom hu
  refine ⟨endEffect (lengthUsed s.table lc) s, ?_, rfl, rfl, ?_⟩
  · exact congrArg Host.Outcome.next (applySymbol_applies hroom hu _)
  · exact consumeBits_nbits_toNat _ s

/-- Settles O27: the range fault comes before the bits are consumed. -/
theorem farPairRaisesDistanceRange : Obligations.FarPairRaisesDistanceRange := by
  intro lc extra dc low s hlc hroom hend tw hu hfar
  rw [exec_ofPair hlc, pairInstr_pair hend]
  change Host.Outcome.next (applySymbol _ _ { s with decoded := none }) = _
  rw [applySymbol_applies (s := { s with decoded := none }) hroom hu, pairEffect_far hfar]
  rfl

/-! ## One byte more -/

/-- `State.Shows` by the distance `d` a copy looks back: the coordinate `d` behind the cursor holds the byte `d` from
the end of the output. -/
theorem shows_iff {s : State} {out : List Byte} : s.Shows out ↔ s.totalOut = out.length ∧
    ∀ d, 1 ≤ d → d ≤ out.length → d ≤ s.writeOffs.toNat →
      winRead s (BitVec.ofNat 13 (s.writeOffs.toNat - d)) = out.getD (out.length - d) 0 := by
  have hrev : ∀ j < out.length, out.reverse.getD j 0 = out.getD (out.length - (j + 1)) 0 := fun j hj => by
    rw [List.getD_eq_getElem _ _ (by simpa using hj), List.getElem_reverse, List.getD_eq_getElem _ _ (by omega)]
    congr 1
    omega
  refine and_congr_right fun _ => ⟨fun h d h1 hlen hw => ?_, fun h j hj => ?_⟩
  · obtain ⟨j, rfl⟩ := Nat.exists_eq_add_of_le' h1
    rw [← hrev j hlen, ← h j (lt_min hlen hw)]
    congr 2
    omega
  · obtain ⟨hlen, hw⟩ := lt_min_iff.mp hj
    rw [hrev j hlen, ← h (j + 1) (by omega) hlen hw]
    congr 2
    omega

/-- A byte written at the cursor is a byte appended to the output. -/
theorem State.Shows.append {s t : State} {out : List Byte} {b : Byte} (h : s.Shows out) (hwrote : Wrote s t)
    (hcur : t.writeOffs.toNat = s.writeOffs.toNat + 1) (hle : t.writeOffs.toNat ≤ 8192)
    (hb : winRead t (BitVec.ofNat 13 s.writeOffs.toNat) = b) : t.Shows (out ++ [b]) := by
  obtain ⟨htotal, hbytes⟩ := shows_iff.mp h
  refine shows_iff.mpr ⟨?_, fun d h1 hd hw => ?_⟩
  · rw [hwrote.count, htotal, List.length_append, List.length_singleton]
    omega
  · rw [List.length_append, List.length_singleton] at hd ⊢
    obtain ⟨j, rfl⟩ := Nat.exists_eq_add_of_le' h1
    rw [hcur, Nat.add_sub_add_right, Nat.add_sub_add_right]
    cases j with
    | zero => rw [Nat.sub_zero, Nat.sub_zero, hb, List.getD_append_right _ _ _ _ le_rfl, Nat.sub_self]; rfl
    | succ j =>
      have hbelow : (BitVec.ofNat 13 (s.writeOffs.toNat - (j + 1))).toNat < s.writeOffs.toNat := by
        rw [BitVec.toNat_ofNat]
        omega
      rw [hwrote.frame _ (.inl hbelow), hbytes (j + 1) (by omega) (by omega) (by omega),
        List.getD_append _ _ _ _ (by omega)]

theorem State.Shows.literalEffect {s : State} {out : List Byte} (h : s.Shows out) (hw : s.writeOffs.toNat < 8192)
    (b : Byte) : (literalEffect b s).Shows (out ++ [b]) := by
  have hcur := writeOffs_literalEffect hw b
  refine h.append (.literalEffect b hw) hcur (by omega) ?_
  rw [BitVec.ofNat_toNat]
  exact memRead_memWrite_same _ b s

/-! ## The copy engine, byte by byte -/

@[simp] theorem moveBytes_zero (s : State) : moveBytes 0 s = s := by simp [moveBytes, copyBytes]

theorem currentOffs_moveBytes {s : State} {n : Nat} (h : s.currentOffs.toNat + n < 8192) :
    (moveBytes n s).currentOffs.toNat = s.currentOffs.toNat + n := by
  rw [moveBytes_currentOffs, BitVec.toNat_add, BitVec.toNat_ofNat]
  omega

/-- The copy is byte-serial: the first byte, then the others from the state it leaves (R74, R152). -/
theorem moveBytes_succ {s : State} {n : Nat} (hsrc : s.currentOffs.toNat < 8191) (hw : s.writeOffs.toNat < 8192) :
    moveBytes (n + 1) s = moveBytes n (moveBytes 1 s) := by
  have hsrc' : (moveBytes 1 s).currentOffs.toNat = s.currentOffs.toNat + 1 := currentOffs_moveBytes (by omega)
  have hw' : (moveBytes 1 s).writeOffs.toNat = s.writeOffs.toNat + 1 := writeOffs_moveBytes hw
  have hwindow : copyBytes s.draw s.offsXor.toNat (n + 1) s.totalOut s.currentOffs.toNat s.writeOffs.toNat s.window =
      (moveBytes n (moveBytes 1 s)).window := by
    rw [moveBytes_window n, hsrc', hw']
    rfl
  have hlen : s.remainingLen - BitVec.ofNat 16 (1 + n) = s.remainingLen - BitVec.ofNat 16 1 - BitVec.ofNat 16 n := by
    rw [BitVec.ofNat_add, sub_add_eq_sub_sub]
  rw [moveBytes, hwindow, Nat.add_comm n 1, hlen, BitVec.ofNat_add, BitVec.ofNat_add, ← add_assoc, ← add_assoc,
    ← add_assoc]
  rfl

/-- The byte a copy within the output moves first is the byte `d` from the end of the output. -/
theorem State.Shows.moveBytes_one {s : State} {out : List Byte} {d : Nat} (h : s.Shows out) (h1 : 1 ≤ d)
    (hd : d ≤ out.length) (hsrc : s.currentOffs.toNat + d = s.writeOffs.toNat) (hw : s.writeOffs.toNat < 8192) :
    (moveBytes 1 s).Shows (out ++ [out.getD (out.length - d) 0]) := by
  obtain ⟨htotal, hbytes⟩ := shows_iff.mp h
  have hcur : (moveBytes 1 s).writeOffs.toNat = s.writeOffs.toNat + 1 := writeOffs_moveBytes hw
  have hlt : s.currentOffs.toNat < s.writeOffs.toNat := by omega
  have hread : winRead (moveBytes 1 s) (BitVec.ofNat 13 s.writeOffs.toNat) =
      winRead (moveBytes 1 s) (BitVec.ofNat 13 s.currentOffs.toNat) :=
    winRead_moveBytes_own (k := 0) hlt hw Nat.one_pos (by omega)
  refine h.append (.moveBytes hw) hcur (by omega) ?_
  rw [hread, winRead_moveBytes_frame (.inl (by rw [BitVec.toNat_ofNat]; omega)), ← hbytes d h1 hd (by omega), ← hsrc,
    Nat.add_sub_cancel]

/-- The copy engine appends what the reference decoder's pair appends (R152, R186). -/
theorem State.Shows.moveBytes {d : Nat} (h1 : 1 ≤ d) : ∀ (n : Nat) {s : State} {out : List Byte}, s.Shows out →
    d ≤ out.length → s.currentOffs.toNat + d = s.writeOffs.toNat → s.writeOffs.toNat + n ≤ 8192 →
    (moveBytes n s).Shows (referencePair d n out)
  | 0, _, _, h, _, _, _ => by rwa [moveBytes_zero]
  | n + 1, s, out, h, hd, hsrc, hn => by
    have hcur : (Machine.moveBytes 1 s).writeOffs.toNat = s.writeOffs.toNat + 1 := writeOffs_moveBytes (by omega)
    have hsrc' : (Machine.moveBytes 1 s).currentOffs.toNat = s.currentOffs.toNat + 1 :=
      currentOffs_moveBytes (by omega)
    rw [moveBytes_succ (by omega) (by omega)]
    exact State.Shows.moveBytes h1 n (h.moveBytes_one h1 hd hsrc (by omega))
      (by rw [List.length_append]; omega) (by omega) (by omega)

/-- `CopyRun` appends as many bytes as it takes off `remaining_len`, whole copy or cut (R152). -/
theorem State.Shows.copyRun {s : State} {out : List Byte} {d : Nat} (h : s.Shows out) (h1 : 1 ≤ d)
    (hd : d ≤ out.length) (hsrc : s.currentOffs.toNat + d = s.writeOffs.toNat) (hw : s.writeOffs.toNat ≤ 8192) :
    (copyRun s).Shows (referencePair d (s.remainingLen.toNat - (copyRun s).remainingLen.toNat) out) := by
  rcases copyRun_cases hw with ⟨hn, e, hrest⟩ | ⟨hn, e, _, hrest⟩
  · rw [hrest, e]
    exact h.moveBytes h1 _ hd hsrc (by omega)
  · rw [hrest, Nat.sub_sub_self hn.le, e]
    exact h.moveBytes h1 _ hd hsrc (by omega)

/-! ## A pair, and the swap -/

/-- Setting a copy up writes no byte of the window and no cursor the output is read by. -/
theorem State.Shows.pairStarted {s : State} {out : List Byte} (h : s.Shows out) (distance length used : Nat) :
    (pairStarted distance length used s).Shows out := h

/-- After the swap the old active half lies below the cursor (R66, R150), so the window shows the same output. -/
theorem State.Shows.doSwap {s : State} {out : List Byte} (h : s.Shows out) (hw : s.writeOffs = 8192) :
    (doSwap s).Shows out := by
  obtain ⟨htotal, hbytes⟩ := shows_iff.mp h
  refine shows_iff.mpr ⟨htotal, fun d h1 hd hle => ?_⟩
  have hle : d ≤ 4096 := hle
  have hhalf : (4096 : BitVec 13).toNat = 4096 := rfl
  have hcursor : s.writeOffs.toNat = 8192 := congrArg BitVec.toNat hw
  have hold : (BitVec.ofNat 13 (8192 - d)).toNat = 8192 - d := by
    rw [BitVec.toNat_ofNat]
    omega
  have hcoord : BitVec.ofNat 13 (4096 - d) = BitVec.ofNat 13 (8192 - d) - 4096 := by
    apply BitVec.eq_of_toNat_eq
    rw [BitVec.toNat_sub_of_le (by rw [BitVec.le_def, hold, hhalf]; omega), hold, hhalf, BitVec.toNat_ofNat]
    omega
  calc winRead (Machine.doSwap s) (BitVec.ofNat 13 (4096 - d))
      = winRead s (BitVec.ofNat 13 (8192 - d)) := by rw [hcoord, (swapRenamesTheHalves s _).1 (by omega)]
    _ = out.getD (out.length - d) 0 := by rw [← hbytes d h1 hd (by omega), hcursor]

/-- The source of a resumed copy stays as far behind the cursor as it was (R151, R161). -/
theorem doSwap_currentOffs_toNat {s : State} (hn : s.remainingLen ≠ 0) (hsrc : 4096 ≤ s.currentOffs.toNat) :
    (doSwap s).currentOffs.toNat = s.currentOffs.toNat - 4096 := by
  rw [doSwap_currentOffs, if_neg hn]
  exact BitVec.toNat_sub_of_le hsrc

/-- Step 2 of R174 with a swap pending appends what is left of the cut pair (R161, R186). -/
theorem State.Shows.enterLoop {s : State} {out : List Byte} (h : s.Shows out) (hb : s.Boundary)
    (hp : s.swapPending = true) (hown : s.remainingLen = 0 ∨ 8192 - s.currentOffs.toNat ≤ out.length) :
    (enterLoop s).Shows (referencePair (8192 - s.currentOffs.toNat)
      (s.remainingLen.toNat - (enterLoop s).remainingLen.toNat) out) := by
  have hlatched : (latched s).Shows out := by
    rw [latched_of_pending hp]
    exact h.doSwap (hb.full_iff_pending.mpr hp)
  have hrem : (latched s).remainingLen = s.remainingLen := by rw [latched_eq]
  rw [enterLoop_eq, hrem]
  by_cases h0 : s.remainingLen = 0
  · rw [if_pos h0, hrem, Nat.sub_self]
    exact hlatched
  · obtain ⟨_, _, hsrc⟩ := hb.copy h0
    have hcur : (latched s).currentOffs.toNat = s.currentOffs.toNat - 4096 := by
      rw [latched_of_pending hp]
      exact doSwap_currentOffs_toNat h0 hsrc
    have hw : (latched s).writeOffs.toNat = 4096 := by
      rw [latched_of_pending hp]
      rfl
    have hlt := s.currentOffs.isLt
    rw [if_neg h0, ← hrem]
    exact hlatched.copyRun (by omega) (hown.resolve_left h0) (by omega) (by omega)

/-- Settles O48: each of the three appends byte by byte (`State.Shows.append`). -/
theorem symbolsFollowTheReferenceDecoder : Obligations.SymbolsFollowTheReferenceDecoder := by
  intro s out h
  refine ⟨?literal, ?pair, fun hb hp hown => h.enterLoop hb hp hown⟩
  case literal =>
    intro b hrun hroom hu
    exact ⟨_, congrArg Host.Outcome.next (applySymbol_applies hroom hu _),
      h.literalEffect (writeOffs_lt hrun.cursor.2 hroom) b⟩
  case pair =>
    intro lc extra dc low hrun hroom hT hfields tw distance hu hd hout
    obtain ⟨hfields, hend, _⟩ := pairFieldsOk_iff.mp hfields
    obtain ⟨hlc, _, hextra⟩ := lengthFieldsOk_iff.mp hfields
    have hval := lengthValue_le hT hlc hextra
    have h1 : 1 ≤ distance := pairDistance_pos _ _ _
    obtain ⟨hge, hle⟩ := hrun.cursor
    refine ⟨_, exec_near_pair hlc hroom hend hu hd, ?_⟩
    set length := lengthValue s.table lc extra + 2
    set used := lengthUsed s.table lc + distanceUsed s.table dc tw
    have hsrc := pairStarted_currentOffs (length := length) (used := used) h1 hle
    have hlen := pairStarted_remainingLen (distance := distance) (used := used) (s := s) (by omega : length ≤ 65535)
    have hback : (pairStarted distance length used s).currentOffs.toNat + distance = s.writeOffs.toNat := by omega
    have hcopy := (h.pairStarted distance length used).copyRun h1 hout hback hle
    rw [hlen] at hcopy
    exact hcopy

end Sys2Proof.Machine

/-! # How a loop runs

What a refill leaves to a later one (R153), that fuel beyond the room in the half changes nothing (R183), how a loop
that wants for bits ends (R204), and that the loop looks at no field of the command around it. -/

namespace Sys2Proof.Machine

/-! ## One refill after another -/

/-- Two states that differ in the accumulator and the chunk position only are equal after a refill if these are. -/
theorem refill_eq_refill {a b : State} (hsame : b = withStream a a.chunk b.acc b.nbits b.pos)
    (hacc : (refill b).acc.toNat = (refill a).acc.toNat) (hnbits : (refill b).nbits.toNat = (refill a).nbits.toNat)
    (hpos : (refill b).pos = (refill a).pos) : refill b = refill a := by
  have hchunk : b.chunk = a.chunk := by rw [hsame]; rfl
  rw [refill_eq_withStream b, refill_eq_withStream a, withStream_eq_of_same hsame, hchunk,
    BitVec.eq_of_toNat_eq hacc, BitVec.eq_of_toNat_eq hnbits, hpos]

section

variable {s : State} (h1 : s.nbits.toNat ≤ 64) (h2 : s.acc.toNat < 2 ^ s.nbits.toNat)
include h1 h2

/-- A refill that can take no byte changes nothing. -/
theorem refill_of_count_zero (h0 : refillCount s = 0) : refill s = s := by
  have hacc : (refill s).acc = s.acc := BitVec.eq_of_toNat_eq (by rw [refill_acc_eq h1 h2, h0]; simp)
  have hnbits : (refill s).nbits = s.nbits :=
    BitVec.eq_of_toNat_eq (by rw [refill_nbits_eq h1 h2, h0, Nat.mul_zero, Nat.add_zero])
  have hpos : (refill s).pos = s.pos := by rw [refill_pos_eq h1 h2, h0, Nat.add_zero]
  rw [refill_eq_withStream, hacc, hnbits, hpos]
  rfl

/-- A refill leaves nothing to the next one. -/
theorem refill_refill (h3 : s.pos ≤ s.chunk.length) : refill (refill s) = refill s := by
  obtain ⟨hn, hacc, _⟩ := refill_spec h1 h2 h3
  refine refill_of_count_zero hn hacc ?_
  rw [refillCount, refill_pos_eq h1 h2, refill_nbits_eq h1 h2, refill_chunk, refillCount]
  omega

end

/-- A run that has read ahead holds after a refill what the other run would hold with the longer chunk. -/
theorem ReadsAhead.refill_eq {first more : List Byte} {ahead : Nat} {a b : State}
    (h : ReadsAhead first more ahead a b) : Machine.refill b = Machine.refill { a with chunk := first ++ more } := by
  have hnb := h.nbits_eq
  have hleb := h.nbits_le
  have hin := h.inside
  have hlea : a.nbits.toNat ≤ 64 := by omega
  set a' : State := { a with chunk := first ++ more }
  have hcount : refillCount a' = ahead + refillCount b := by
    rw [refillCount, refillCount, h.chunk_append, h.pos_eq, hnb]
    change min ((first ++ more).length - a.pos) ((64 - a.nbits.toNat) / 8) = _
    rw [List.length_append]
    omega
  have hvalue := bytesValue_take_add (m := ahead) (l := (first ++ more).drop a.pos)
    (by rw [List.length_drop, List.length_append]; omega) (refillCount b)
  rw [List.drop_drop] at hvalue
  refine refill_eq_refill (a := a') (by rw [h.pos_eq]; exact h.same) ?_ ?_ ?_
  · rw [refill_acc_eq hleb h.acc_lt', refill_acc_eq (s := a') hlea h.acc_lt, hcount, hvalue, h.acc_eq, hnb,
      h.chunk_append, h.pos_eq, Nat.pow_add]
    ring
  · rw [refill_nbits_eq hleb h.acc_lt', refill_nbits_eq (s := a') hlea h.acc_lt, hcount, hnb]
    change _ = a.nbits.toNat + _
    omega
  · rw [refill_pos_eq hleb h.acc_lt', refill_pos_eq (s := a') hlea h.acc_lt, hcount, h.pos_eq]
    exact Nat.add_assoc _ _ _

/-- The iteration begins with the refill, so it depends on what that leaves only (R176). -/
theorem iteration_congr {a b : State} (h : refill b = refill a) : iteration b = iteration a := by
  rw [iteration, iteration, h]

/-! ## Fuel -/

theorem decodeLoop_add (m n : Nat) (s : State) : decodeLoop (m + n) s = decodeLoop n (decodeLoop m s) := by
  induction m generalizing s with
  | zero => rw [Nat.zero_add, decodeLoop]
  | succ m ih =>
    by_cases hr : s.reason = .none
    · rw [Nat.add_right_comm, decodeLoop_of_going hr, decodeLoop_of_going hr, ih]
    · rw [decodeLoop_of_stopped hr, decodeLoop_of_stopped hr, decodeLoop_of_stopped hr]

/-- Fuel beyond the room in the half changes nothing (R183). -/
theorem State.LoopOk.decodeLoop_fuel {s : State} (h : s.LoopOk) {fuel : Nat} (hf : 8193 ≤ fuel + s.writeOffs.toNat) :
    decodeLoop fuel s = decodeLoop (loopFuel s) s := by
  have hle := h.cursor.2
  obtain ⟨k, rfl⟩ : ∃ k, fuel = loopFuel s + k := Nat.exists_eq_add_of_le (by rw [loopFuel]; omega)
  obtain ⟨_, hstop, _⟩ := decodeLoop_spec (loopFuel s) h (by rw [loopFuel]; omega)
  rw [decodeLoop_add, decodeLoop_of_stopped hstop]

/-! ## The stop for want of bits -/

theorem copyRun_reason_ne {s : State} (h : s.reason ≠ .needBits) : (copyRun s).reason ≠ .needBits := by
  rw [copyRun_reason]
  split
  · exact h
  · decide

theorem pairEffect_reason_ne {s : State} (h : s.reason ≠ .needBits) (distance length used : Nat) :
    (pairEffect distance length used s).reason ≠ .needBits := by
  by_cases hd : distance > 4096
  · rw [pairEffect_far hd]
    simp
  · rw [pairEffect_near (by omega)]
    exact copyRun_reason_ne h

theorem enterLoop_reason_ne {s : State} (h : s.reason ≠ .needBits) : (enterLoop s).reason ≠ .needBits := by
  have hlatched : (latched s).reason ≠ .needBits := by rwa [latched_eq]
  rw [enterLoop_eq]
  split
  · exact hlatched
  · exact copyRun_reason_ne hlatched

/-- An iteration stops for want of bits in one way only: the refill leaves no whole symbol (R176). -/
theorem iteration_stops_needBits {s : State} (hr : s.reason ≠ .needBits) (h : (iteration s).reason = .needBits) :
    s.writeOffs ≠ 8192 ∧ (∃ n, (refill s).nextSymbol = .needBits n) ∧ iteration s = stopNeedBits (refill s) := by
  revert h
  exact iteration_cases (motive := fun t => t.reason = .needBits →
      s.writeOffs ≠ 8192 ∧ (∃ n, (refill s).nextSymbol = .needBits n) ∧ t = stopNeedBits (refill s)) s
    (fun _ h => absurd h (by simp)) (fun hw n hd _ => ⟨hw, ⟨n, hd⟩, rfl⟩) (fun _ _ _ _ h => absurd h hr)
    (fun _ _ _ _ _ h => absurd h (pairEffect_reason_ne (s := refill s) hr _ _ _)) (fun _ _ _ h => absurd h (by simp))

/-- A loop that stops for want of bits holds no whole symbol, and the refill before that took all it could (R190,
R204). -/
theorem State.LoopOk.decodeLoop_needBits : ∀ (fuel : Nat) {s : State}, s.LoopOk → s.reason ≠ .needBits →
    (decodeLoop fuel s).reason = .needBits →
    (∃ n, (decodeLoop fuel s).nextSymbol = .needBits n) ∧
      ((decodeLoop fuel s).pos = (decodeLoop fuel s).chunk.length ∨ 57 ≤ (decodeLoop fuel s).nbits.toNat)
  | 0, _, _, hr, hstop => absurd hstop hr
  | fuel + 1, s, h, hr, hstop => by
    by_cases hgo : s.reason = .none
    · rw [decodeLoop_of_going hgo] at hstop ⊢
      by_cases hlast : (Machine.iteration s).reason = .needBits
      · obtain ⟨_, hmissing, e⟩ := iteration_stops_needBits hr hlast
        obtain ⟨hn, hacc⟩ := (h.running hgo).bits
        obtain ⟨_, _, _, _, _, hfilled⟩ := refill_spec hn hacc h.pos_le
        rw [decodeLoop_of_stopped (by rw [hlast]; decide), e]
        exact ⟨hmissing, hfilled⟩
      · exact State.LoopOk.decodeLoop_needBits fuel (h.iteration hgo) hlast hstop
    · rw [decodeLoop_of_stopped hgo] at hstop
      exact absurd hstop hr

/-! ## What the loop does not look at -/

/-- The state `c` in the place of `w`: its chunk behind the bytes `first`, and the fields that a command writes only at
its two ends those of `w`. -/
def behind (first : List Byte) (w c : State) : State :=
  { c with
    chunk := first ++ c.chunk, pos := c.pos + first.length
    totalIn := w.totalIn, response := w.response, phase := w.phase, start := w.start, decoded := w.decoded }

/-- An operation that does not look at what `behind` replaces, nor at the chunk but behind its position. -/
def CommandBlind (f : State → State) : Prop := ∀ first w c, f (behind first w c) = behind first w (f c)

theorem refillFrom_pos_add (k : Nat) : ∀ (bytes : List Byte) (r : RefillResult),
    refillFrom bytes { r with pos := r.pos + k } = { refillFrom bytes r with pos := (refillFrom bytes r).pos + k }
  | [], _ => rfl
  | b :: rest, r => by
    rw [refillFrom, refillFrom]
    split
    · rw [← refillFrom_pos_add k rest, Nat.add_right_comm]
    · rfl

namespace CommandBlind

theorem stopNeedBits : CommandBlind stopNeedBits := fun _ _ _ => rfl
theorem stopHalfFull : CommandBlind stopHalfFull := fun _ _ _ => rfl
theorem endEffect (used : Nat) : CommandBlind (endEffect used) := fun _ _ _ => rfl
theorem raiseFatal (code : FaultCode) : CommandBlind (raiseFatal code) := fun _ _ _ => rfl
theorem literalEffect (b : Byte) : CommandBlind (literalEffect b) := fun _ _ _ => rfl
theorem moveBytes (n : Nat) : CommandBlind (moveBytes n) := fun _ _ _ => rfl

theorem startPair (distance length used : Nat) :
    CommandBlind fun s => startCopy distance length (consumeBits used s) := fun _ _ _ => rfl

/-- The bytes a refill takes are those behind the chunk position (R153). -/
theorem refill : CommandBlind refill := fun first w c => by
  have hrest : (first ++ c.chunk).drop (c.pos + first.length) = c.chunk.drop c.pos := by
    rw [Nat.add_comm, ← List.drop_drop, List.drop_left]
  have hfill := refillFrom_pos_add first.length (c.chunk.drop c.pos) { acc := c.acc, nbits := c.nbits, pos := c.pos }
  conv_lhs at hfill => rw [← hrest]
  exact congrArg (fun r => withStream (behind first w c) (first ++ c.chunk) r.acc r.nbits r.pos) hfill

theorem copyRun : CommandBlind copyRun := fun first w c => by
  change (if (Machine.moveBytes (copyCount c) c).remainingLen = 0 then
      behind first w (Machine.moveBytes (copyCount c) c)
    else behind first w (Machine.stopHalfFull (Machine.moveBytes (copyCount c) c))) = _
  rw [Machine.copyRun]
  split <;> rfl

theorem pairEffect (distance length used : Nat) : CommandBlind (pairEffect distance length used) := fun first w c => by
  by_cases h : distance > 4096
  · rw [pairEffect_far h, pairEffect_far h]
    rfl
  · rw [pairEffect_near (by omega), pairEffect_near (by omega)]
    exact copyRun first w (startCopy distance length (consumeBits used c))

/-- The iteration takes the branch that the accumulator and the cursor choose (R176). -/
theorem iteration : CommandBlind iteration := fun first w c => by
  have hrefill := refill first w c
  have hsymbol : (Machine.refill (behind first w c)).nextSymbol = (Machine.refill c).nextSymbol := by rw [hrefill]; rfl
  refine iteration_cases (motive := fun t => Machine.iteration (behind first w c) = behind first w t) c
    (fun hw => ?_) (fun hw n hd => ?_) (fun hw b used hd => ?_) (fun hw distance length used hd => ?_)
    (fun hw used hd => ?_)
  · rw [iteration_full (s := behind first w c) hw, hrefill]
    rfl
  · rw [iteration_needBits (s := behind first w c) hw (hsymbol.trans hd), hrefill]
    rfl
  · rw [iteration_literal (s := behind first w c) hw (hsymbol.trans hd), hrefill]
    rfl
  · rw [iteration_pair (s := behind first w c) hw (hsymbol.trans hd), hrefill]
    exact pairEffect distance length used first w (Machine.refill c)
  · rw [iteration_end (s := behind first w c) hw (hsymbol.trans hd), hrefill]
    rfl

theorem decodeLoop : ∀ fuel, CommandBlind (decodeLoop fuel)
  | 0, _, _, _ => rfl
  | fuel + 1, first, w, c => by
    by_cases hr : c.reason = .none
    · rw [decodeLoop_of_going (s := behind first w c) hr, decodeLoop_of_going hr, iteration]
      exact decodeLoop fuel first w _
    · rw [decodeLoop_of_stopped (s := behind first w c) hr, decodeLoop_of_stopped hr]

end CommandBlind

/-- No iteration writes the field `decoded`: it is the small steps' own (log 7). -/
theorem iteration_decoded (s : State) : (iteration s).decoded = s.decoded := by
  have h := congrArg State.decoded (CommandBlind.iteration [] s s)
  exact h

end Sys2Proof.Machine

/-! # A chunk cut in two

A command that stops for want of bits with its chunk exhausted, and the next one with further bytes (R184, R220): the
second loop begins where the loop over all the bytes goes on. -/

namespace Sys2Proof.Machine

/-! ## The longer run -/

/-- A loop that stopped for want of bits, set going again with another chunk. -/
def goOn (chunk : List Byte) (s : State) : State := { s with chunk := chunk, reason := .none }

theorem goOn_stopNeedBits {s : State} (h : s.reason = .none) (chunk : List Byte) :
    goOn chunk (stopNeedBits s) = { s with chunk := chunk } := by
  change { s with chunk := chunk, reason := .none } = _
  rw [← h]

namespace ReadsAhead

variable {first more : List Byte} {ahead : Nat} {a b : State} (h : ReadsAhead first more ahead a b)
include h

/-- Where the shorter run stops for want of bits, the longer one fills its accumulator as that stop going on would. -/
theorem refill_goOn (hgo : a.reason = .none) :
    Machine.refill b = Machine.refill (goOn (first ++ more) (stopNeedBits (Machine.refill a))) := by
  obtain ⟨n, hn⟩ := h.refill
  have hle : b.pos ≤ b.chunk.length := by
    rw [h.chunk_append, h.pos_eq, List.length_append]
    exact h.inside
  rw [goOn_stopNeedBits (s := Machine.refill a) hgo, ← hn.refill_eq, refill_refill h.nbits_le h.acc_lt' hle]

theorem goOn_loopOk (hok : a.LoopOk) (hgo : a.reason = .none) :
    (goOn (first ++ more) (stopNeedBits (Machine.refill a))).LoopOk := by
  have hgoing := (hok.going hgo).refill
  obtain ⟨n, hn⟩ := h.refill
  have hinside := hn.inside
  rw [goOn_stopNeedBits (s := Machine.refill a) hgo]
  refine State.Going.loopOk { hgoing with pos_le := ?_ } (hok.no_copy hgo)
  change (Machine.refill a).pos ≤ (first ++ more).length
  rw [List.length_append]
  omega

end ReadsAhead

/-- With more bytes behind the chunk the loop does what it did without them and then goes on (R184). -/
theorem ReadsAhead.decodeLoop_needBits {first more : List Byte} : ∀ (fuel : Nat) {ahead : Nat} {a b : State},
    ReadsAhead first more ahead a b → a.LoopOk → a.reason ≠ .needBits → 8193 ≤ fuel + a.writeOffs.toNat →
    (Machine.decodeLoop fuel a).reason = .needBits →
    Machine.decodeLoop fuel b = Machine.decodeLoop (loopFuel (goOn (first ++ more) (Machine.decodeLoop fuel a)))
      (goOn (first ++ more) (Machine.decodeLoop fuel a))
  | 0, _, _, _, _, _, hr, _, hstop => absurd hstop hr
  | fuel + 1, ahead, a, b, h, hok, hr, hfuel, hstop => by
    by_cases hgo : a.reason = .none
    · have hreason : b.reason = .none := (h.field_eq (·.reason) fun _ _ _ _ _ => rfl).trans hgo
      rw [decodeLoop_of_going hgo] at hstop ⊢
      by_cases hlast : (Machine.iteration a).reason = .needBits
      · obtain ⟨_, _, e⟩ := iteration_stops_needBits hr hlast
        rw [decodeLoop_of_stopped (s := Machine.iteration a) (by rw [hlast]; decide), e,
          ← (h.goOn_loopOk hok hgo).decodeLoop_fuel (fuel := fuel + 1) hfuel, decodeLoop_of_going hreason,
          decodeLoop_of_going (s := goOn _ _) rfl, iteration_congr (h.refill_goOn hgo)]
      · have hgo' : (Machine.iteration a).reason = .none := Decidable.of_not_not fun hne => hlast (by
          rwa [decodeLoop_of_stopped hne] at hstop)
        have hlt := iteration_progress hok hgo'
        obtain ⟨n, hn⟩ := h.iteration hok.table_wf hlast
        rw [decodeLoop_of_going hreason]
        exact ReadsAhead.decodeLoop_needBits fuel hn (hok.iteration hgo) hlast (by omega) hstop
    · rw [decodeLoop_of_stopped hgo] at hstop
      exact absurd hstop hr

/-- The loop over all the bytes is the loop over the first ones, going on. -/
theorem State.AtSwap.runLoop_append {s : State} (h : s.AtSwap) {first : List Byte} (more : List Byte)
    (hc : s.chunk = first) (hstop : (runLoop s).reason = .needBits) :
    runLoop { s with chunk := first ++ more } =
      decodeLoop (loopFuel (goOn (first ++ more) (runLoop s))) (goOn (first ++ more) (runLoop s)) := by
  have hstart := (readsAhead_start h.boundary more hc (hc ▸ h.pos_le)).map enterLoop_blind
  have hok := h.enterLoop_loopOk
  have hle := hok.cursor.2
  have hfuel : loopFuel (enterLoop { s with chunk := first ++ more }) = loopFuel (enterLoop s) :=
    hstart.field_eq loopFuel fun _ _ _ _ _ => rfl
  have hreason : s.reason ≠ .needBits := by
    rw [h.reason_none]
    decide
  rw [runLoop, hfuel]
  exact hstart.decodeLoop_needBits _ hok (enterLoop_reason_ne hreason) (by rw [loopFuel]; omega) hstop

/-! ## The second command -/

/-- With no swap pending and no copy left, step 2 of R174 latches the start of the slice only. -/
theorem State.AtSwap.enterLoop_not_pending {s : State} (h : s.AtSwap) (hp : s.swapPending = false) :
    enterLoop s = { s with start := s.writeOffs } := by
  have h0 : s.remainingLen = 0 := (h.not_pending_room hp).2
  rw [enterLoop_eq, latched_of_not_pending hp]
  exact if_pos h0

section

variable {a : State} (hok : a.LoopOk) (hstop : a.reason = .needBits)
include hok hstop

/-- A stop for want of bits sets no flag (R176). -/
theorem State.LoopOk.needBits_flags :
    a.swapPending = false ∧ a.ended = false ∧ a.fatal = false ∧ (closeLoop a).headerOutstanding = false := by
  have hreason : a.reason ≠ .none := by rw [hstop]; decide
  have hstopped := hok.stopped hreason
  have hboundary := (hok.closeLoop_inv hreason).idle_boundary rfl
  refine ⟨?_, ?_, ?_, hboundary.headerOutstanding_eq.trans hstopped.header_done⟩ <;> rw [Bool.eq_false_iff, ne_eq]
  · rw [hstopped.pending_iff, hstop]
    decide
  · rw [hstopped.ended_iff, hstop]
    decide
  · rw [hstopped.fatal_iff, hstop]
    decide

/-- The next command comes to step 2 of R174. -/
theorem State.LoopOk.needBits_atSwap (more : List Byte) : (openCommand more (closeLoop a)).AtSwap := by
  obtain ⟨_, hended, hfatal, hheader⟩ := hok.needBits_flags hstop
  exact (hok.closeLoop_inv (by rw [hstop]; decide)).openCommand_atSwap rfl more hfatal hended hheader

theorem State.LoopOk.needBits_processChunk (more : List Byte) :
    processChunk more (closeLoop a) = closeLoop (runLoop (openCommand more (closeLoop a))) := by
  obtain ⟨_, hended, hfatal, hheader⟩ := hok.needBits_flags hstop
  exact processChunk_goesOn (s := closeLoop a) hfatal hended
    (consumeHeader_done (s := openCommand more (closeLoop a)) hheader)

/-- The next command swaps nothing and resumes nothing. -/
theorem State.LoopOk.needBits_enterLoop (more : List Byte) :
    enterLoop (openCommand more (closeLoop a)) = { openCommand more (closeLoop a) with start := a.writeOffs } :=
  (hok.needBits_atSwap hstop more).enterLoop_not_pending (hok.needBits_flags hstop).1

/-- The first loop going on is the second loop in its place. -/
theorem State.LoopOk.goOn_eq_behind {first : List Byte} (more : List Byte) (hpos : a.pos = first.length)
    (hanswer : a.answer = none) :
    goOn (first ++ more) a = behind first a (enterLoop (openCommand more (closeLoop a))) := by
  rw [hok.needBits_enterLoop hstop]
  change goOn (first ++ more) a = { goOn (first ++ more) a with pos := 0 + first.length, answer := none }
  rw [Nat.zero_add, ← hpos, ← hanswer]
  rfl

end

/-! ## The two responses -/

/-- Adjacent slices: their lengths add up (R178). -/
theorem outLen_add (a b c : BitVec 14) : (c - a).setWidth 13 = (b - a).setWidth 13 + (c - b).setWidth 13 := by
  bv_omega

/-- A slice that begins where another ends (R178). -/
theorem State.LoopOk.outOff_adjacent {a z : State} (ha : a.LoopOk) (hz : z.LoopOk) (hsel : z.offsXor = a.offsXor)
    (hstart : z.start = a.writeOffs) :
    (loopResponse z).outOff = (loopResponse a).outOff + (loopResponse a).outLen := by
  obtain ⟨hoff, hlen⟩ := ha.slice
  obtain ⟨hoff', _⟩ := hz.slice
  obtain ⟨h1, _, h3⟩ := ha.start_ok
  obtain ⟨_, h4, _⟩ := hz.start_ok
  rw [hsel, hstart] at hoff'
  rw [hstart] at h4
  apply BitVec.eq_of_toNat_eq
  rw [BitVec.toNat_add, hoff, hlen, hoff']
  split <;> omega

/-- The conclusion of R184 for a stop for NEED_BITS: `u`, the second of two commands, leaves what `v`, the one with all
the bytes, leaves; `r` is the response of the first. -/
def CutInTwo (first : List Byte) (u v : State) (r : Response) : Prop :=
  ∃ q, u.response = some q ∧ q.outOff = r.outOff + r.outLen ∧
    v = { u with response := some { q with
      consumed := first.length + q.consumed, outOff := r.outOff, outLen := r.outLen + q.outLen } }

/-- A loop `z` that began where the loop `a` stopped, closed on its own and in the place of `a`. -/
theorem State.LoopOk.closeLoop_behind {first : List Byte} {a z : State} (ha : a.LoopOk) (hz : z.LoopOk)
    (hsel : z.offsXor = a.offsXor) (hstart : z.start = a.writeOffs) (hin : z.totalIn = a.totalIn + first.length) :
    CutInTwo first (closeLoop z) (closeLoop (behind first a z)) (loopResponse a) := by
  refine ⟨loopResponse z, rfl, ha.outOff_adjacent hz hsel hstart, ?_⟩
  have hlen : (loopResponse (behind first a z)).outLen = (loopResponse a).outLen + (loopResponse z).outLen := by
    change (z.writeOffs - a.start).setWidth 13 =
      (a.writeOffs - a.start).setWidth 13 + (z.writeOffs - z.start).setWidth 13
    rw [hstart]
    exact outLen_add _ _ _
  have hoff : (loopResponse (behind first a z)).outOff = (loopResponse a).outOff := by
    change a.start.setWidth 13 ^^^ z.offsXor = _
    rw [hsel]
    rfl
  have htotal : a.totalIn + (z.pos + first.length) = z.totalIn + z.pos := by omega
  rw [← hlen, ← hoff, Nat.add_comm first.length]
  change { closeLoop z with
    totalIn := a.totalIn + (z.pos + first.length), response := some (loopResponse (behind first a z)) } = _
  rw [htotal]
  rfl

/-- The two commands from the start of the first one's step 2. -/
theorem State.AtSwap.cutInTwo {s : State} (h : s.AtSwap) {first : List Byte} (more : List Byte) (hc : s.chunk = first)
    (hanswer : s.answer = none) (hstop : (runLoop s).reason = .needBits) (hpos : (runLoop s).pos = first.length) :
    CutInTwo first (processChunk more (closeLoop (runLoop s)))
      (closeLoop (runLoop { s with chunk := first ++ more })) (loopResponse (runLoop s)) := by
  obtain ⟨hok, _, _⟩ := h.runLoop_spec
  have hanswer' : (runLoop s).answer = none := by rw [(runLoop_frame s).answer, latched_eq, hanswer]
  rw [h.runLoop_append more hc hstop]
  generalize runLoop s = a at hok hanswer' hstop hpos ⊢
  have hsecond := hok.needBits_atSwap hstop more
  have hpending := (hok.needBits_flags hstop).1
  have hlatched := latched_of_not_pending (s := openCommand more (closeLoop a)) hpending
  have hframe := runLoop_frame (openCommand more (closeLoop a))
  rw [hlatched] at hframe
  rw [hok.goOn_eq_behind hstop more hpos hanswer', CommandBlind.decodeLoop, hok.needBits_processChunk hstop]
  refine hok.closeLoop_behind hsecond.runLoop_spec.1 hframe.offsXor hframe.start (hframe.totalIn.trans ?_)
  change a.totalIn + a.pos = _
  rw [hpos]

theorem reason_of_stop_needBits {s : State} (h : (loopResponse s).stop = .needBits) : s.reason = .needBits := by
  change s.reason.stop = .needBits at h
  cases hreason : s.reason with
  | needBits => rfl
  | none | halfFull | ended | fault => rw [hreason] at h; cases h

/-- Settles O46, by the ways the first command can go: only a loop stops for NEED_BITS. -/
theorem splitChunkEqualsWholeChunk : Obligations.SplitChunkEqualsWholeChunk := by
  intro first more s t u v r h hp ht hresp hstop hconsumed hu hv
  obtain rfl := processChunk_of_exec (idle_of_exec_command rfl hu) hu
  obtain rfl := processChunk_of_exec hp ht
  obtain rfl := processChunk_of_exec hp hv
  have hb := h.idle_boundary hp
  suffices H : ∀ r, (processChunk first s).response = some r → r.stop = .needBits → r.consumed = first.length →
      CutInTwo first (processChunk more (processChunk first s)) (processChunk (first ++ more) s) r from
    H r hresp hstop hconsumed
  clear hresp hstop hconsumed ht hu hv
  refine processChunk_cases (motive := fun t => ∀ r, t.response = some r → r.stop = .needBits →
      r.consumed = first.length → CutInTwo first (processChunk more t) (processChunk (first ++ more) s) r) first s
    (fun _ r hr hstop => ?_) (fun _ _ r hr hstop => ?_) (fun _ _ _ _ r hr hstop => ?_)
    (fun _ _ _ _ _ _ _ r hr hstop => ?_) (fun _ _ _ _ r hr hstop => ?_)
    (fun hf he hh dict rest hc r hr hstop hconsumed => ?_) (fun hf he hh r hr hstop hconsumed => ?_) <;>
    obtain rfl := Option.some.inj hr
  · cases hstop
  · cases hstop
  · cases hstop
  · cases hstop
  · cases hstop
  · have hn : s.needMode = true := hb.headerOutstanding_eq ▸ hh
    have hboth : consumeHeader (openCommand (first ++ more) s) =
        .goesOn (headerDone dict (openCommand (first ++ more) s)) :=
      consumeHeader_both (s := openCommand (first ++ more) s) (rest := rest ++ more) hh (by rw [hc]; rfl)
    rw [processChunk_goesOn hf he hboth]
    exact ((h.openCommand_boundary hp first).headerDone_atSwap h.table_wf h.window_wf h.position_ok hn hf rfl
      hc).cutInTwo more rfl rfl (reason_of_stop_needBits hstop) hconsumed
  · rw [processChunk_goesOn hf he (consumeHeader_done hh)]
    exact (h.openCommand_atSwap hp first hf he hh).cutInTwo more rfl rfl (reason_of_stop_needBits hstop) hconsumed

end Sys2Proof.Machine

/-! # The small steps of PROCESS_CHUNK

Each iteration of the loop is one small step, or two for a pair (log 7); the header and the swap are steps of their own
(log 6). Together they reach what the big-step definition of R174 answers (R182). -/

namespace Sys2Proof

/-! ## The first stage of a symbol -/

theorem checkBits_of_lt {α : Type} {nbits used : Nat} (h : nbits < used) (a : α) :
    checkBits nbits used a = .needBits (used - nbits) := if_pos h

section

variable {win nbits d : Nat} {T : CodeTable}

/-- The first stage misses the bits the whole symbol misses (R126). -/
theorem decodeStage_needBits {n : Nat} (h : decode win nbits T d = .needBits n) :
    decodeStage win nbits T d = .needBits n := by
  unfold decode at h
  unfold decodeStage
  rcases decodeWith_cases Symbol.literal (fun _ => .endMark) (fun _ dist => .pair dist.distance dist.length)
    win nbits T d with ⟨hclass, e⟩ | ⟨hclass, hval, e⟩ | ⟨hclass, hval, e⟩ <;> rw [e] at h <;>
    obtain ⟨hlt, rfl⟩ := checkBits_needBits h
  · rw [decodeWith_literal hclass, checkBits_of_lt hlt]
  · rw [decodeWith_end hclass hval, checkBits_of_lt hlt]
  · rw [decodeWith_pair hclass hval, checkBits_of_lt hlt]

/-- The first stage of a literal is the whole of it (R122). -/
theorem decodeStage_literal {b : Byte} {used : Nat} (h : decode win nbits T d = .sym (.literal b) used) :
    decodeStage win nbits T d = .sym (.lit b) used := by
  unfold decode at h
  unfold decodeStage
  rcases decodeWith_cases Symbol.literal (fun _ => .endMark) (fun _ dist => .pair dist.distance dist.length)
    win nbits T d with ⟨hclass, e⟩ | ⟨_, _, e⟩ | ⟨_, _, e⟩ <;> rw [e] at h <;>
    obtain ⟨hsym, rfl, hused⟩ := checkBits_sym h
  · rw [decodeWith_literal hclass, checkBits_of_le hused, ← Symbol.literal.inj hsym]
  · cases hsym
  · cases hsym

/-- The first stage of the end marker is the whole of it (R124). -/
theorem decodeStage_end {used : Nat} (h : decode win nbits T d = .sym .endMark used) :
    ∃ lc extra, decodeStage win nbits T d = .sym (.endMark lc extra) used ∧ used = lengthUsed T lc := by
  unfold decode at h
  unfold decodeStage
  rcases decodeWith_cases Symbol.literal (fun _ => .endMark) (fun _ dist => .pair dist.distance dist.length)
    win nbits T d with ⟨_, e⟩ | ⟨hclass, hval, e⟩ | ⟨_, _, e⟩ <;> rw [e] at h <;>
    obtain ⟨hsym, rfl, hused⟩ := checkBits_sym h
  · cases hsym
  · exact ⟨(lengthPart T win).code, (lengthPart T win).extra,
      by rw [decodeWith_end hclass hval, checkBits_of_le hused], rfl⟩
  · cases hsym

end

end Sys2Proof

namespace Sys2Proof.Machine

/-- The second step of a pair: what its distance part left in `decoded` is applied (log 7). -/
theorem step_pairEffect {s : State} {dc low : Nat} (hT : s.table.wf = true) (hp : s.phase = .loop)
    (hr : s.reason = .none) (hroom : s.writeOffs ≠ 8192)
    (hend : (lengthPart s.table s.acc.toNat).val ≠ s.table.endValue) :
    let part := distanceResult s.table s.dictBits.toNat (lengthPart s.table s.acc.toNat) dc low
    s.decoded = some part → part.used ≤ s.nbits.toNat →
    step s = .next (pairEffect part.distance part.length part.used { s with decoded := none }) := by
  intro part hd hbits
  have hval : lengthValue s.table (lengthPart s.table s.acc.toNat).code (lengthPart s.table s.acc.toNat).extra ≠
      s.table.endValue := hend
  rw [step_loop_pair hp hr hd, exec_ofPair (lengthPart_code_lt hT _), pairInstr_pair hval]
  exact congrArg Host.Outcome.next (applySymbol_applies (s := { s with decoded := none }) hroom hbits _)

/-! ## Runs of steps -/

theorem run_succ_of_next {M : Host.Core} {n : Nat} {s t : M.State} (h : M.step s = .next t) :
    M.run (n + 1) s = M.run n t := by rw [Host.Core.run, h]

theorem next_of_run_succ {M : Host.Core} {n : Nat} {s u : M.State} (h : M.run (n + 1) s = .next u) :
    ∃ t, M.step s = .next t ∧ M.run n t = .next u := by
  rw [Host.Core.run] at h
  cases hs : M.step s with
  | next t => rw [hs] at h; exact ⟨t, rfl, h⟩
  | fault r => rw [hs] at h; cases h
  | refused r => rw [hs] at h; cases h

/-- Some number of steps leads from `s` to `t`. -/
def Reaches (s t : State) : Prop := ∃ n, Host.Core.run Sys2Proof.core n s = .next t

namespace Reaches

theorem refl (s : State) : Reaches s s := ⟨0, rfl⟩

theorem step {s t u : State} (h : step s = .next t) (k : Reaches t u) : Reaches s u := by
  obtain ⟨n, hn⟩ := k
  exact ⟨n + 1, (run_succ_of_next (M := Sys2Proof.core) h).trans hn⟩

theorem single {s t : State} (h : Machine.step s = .next t) : Reaches s t := step h (refl t)

theorem trans {s t u : State} (h : Reaches s t) (k : Reaches t u) : Reaches s u := by
  obtain ⟨n, hn⟩ := h
  induction n generalizing s with
  | zero => exact Host.Outcome.next.inj hn ▸ k
  | succ n ih =>
    obtain ⟨s', hs, hrest⟩ := next_of_run_succ (M := Sys2Proof.core) hn
    exact step hs (ih hrest)

/-! ## The loop -/

/-- The two small steps of a pair (log 7): its distance part, then its copy. -/
theorem pair {s : State} (hT : s.table.wf = true) (hp : s.phase = .loop) (hr : s.reason = .none)
    (hd : s.decoded = none) (hroom : s.writeOffs ≠ 8192) {distance length used : Nat}
    (hsym : (refill s).nextSymbol = .sym (.pair distance length) used) :
    Reaches s (pairEffect distance length used (refill s)) := by
  obtain ⟨hclass, hend, hbits, rfl, rfl, rfl⟩ := decode_pair hsym
  set t := refill s
  set part := distancePart t.table t.dictBits.toNat t.acc.toNat (lengthPart t.table t.acc.toNat)
  have hcode : part.code < 64 := distancePart_code_lt hT _ _ _
  have hstage : decodeStage t.acc.toNat t.nbits.toNat t.table t.dictBits.toNat =
      .sym (.ofDist part.code part.low) part.used := by
    rw [decodeStage, decodeWith_pair hclass hend, checkBits_of_le hbits]
  have hfirst : Machine.step s = .next { t with decoded := some part } :=
    (step_loop_stage hp hr hd hroom hstage).trans (exec_ofDist_pair hcode part.low hclass hend hbits)
  have hsecond := step_pairEffect (s := { t with decoded := some part }) hT hp hr hroom hend rfl hbits
  have hdrop : { t with decoded := none } = t := by rw [← hd]; rfl
  change _ = Host.Outcome.next (pairEffect part.distance part.length part.used { t with decoded := none }) at hsecond
  rw [hdrop] at hsecond
  exact step hfirst (single hsecond)

/-- Small steps do what one iteration does (R176, R182). -/
theorem iteration {s : State} (hT : s.table.wf = true) (hp : s.phase = .loop) (hr : s.reason = .none)
    (hd : s.decoded = none) : Reaches s (iteration s) := by
  refine iteration_cases (motive := Reaches s) s (fun hfull => ?_) (fun hroom n hsym => ?_)
    (fun hroom b used hsym => ?_) (fun hroom distance length used hsym => ?_) (fun hroom used hsym => ?_)
  · exact single (step_loop_full hp hr hd hfull)
  · exact single (step_loop_needBits hp hr hd hroom (decodeStage_needBits hsym))
  · have hused := nextSymbol_used hsym
    rw [nextSymbol_literal_used hsym] at hused
    refine single ((step_loop_stage hp hr hd hroom (decodeStage_literal hsym)).trans ?_)
    exact congrArg Host.Outcome.next (applySymbol_applies (s := refill s) hroom hused _)
  · exact pair hT hp hr hd hroom hsym
  · obtain ⟨lc, extra, hstage, rfl⟩ := decodeStage_end hsym
    refine single ((step_loop_stage hp hr hd hroom hstage).trans ?_)
    exact congrArg Host.Outcome.next (applySymbol_applies (s := refill s) hroom (nextSymbol_used hsym) _)

/-- Small steps do what the loop does. -/
theorem decodeLoop : ∀ (fuel : Nat) {s : State}, s.LoopOk → s.phase = .loop → s.decoded = none →
    Reaches s (decodeLoop fuel s)
  | 0, s, _, _, _ => refl s
  | fuel + 1, s, h, hp, hd => by
    by_cases hr : s.reason = .none
    · rw [decodeLoop_of_going hr]
      exact (iteration h.table_wf hp hr hd).trans (decodeLoop fuel (h.iteration hr)
        ((LoopFrame.iteration s).phase.trans hp) ((iteration_decoded s).trans hd))
    · rw [decodeLoop_of_stopped hr]
      exact refl s

end Reaches

/-! ## The whole command -/

/-- The state in another phase of the command. -/
def withPhase (p : Phase) (s : State) : State := { s with phase := p }

theorem CommandBlind.withPhase {f : State → State} (hf : CommandBlind f) (p : Phase) (s : State) :
    f (withPhase p s) = Machine.withPhase p (f s) := by
  have hself : f s = behind [] s (f s) := hf [] s s
  calc f (Machine.withPhase p s) = behind [] (Machine.withPhase p s) (f s) := hf [] (Machine.withPhase p s) s
    _ = Machine.withPhase p (behind [] s (f s)) := rfl
    _ = Machine.withPhase p (f s) := by rw [← hself]

/-- Step 2 of R174 does not look at the phase. -/
theorem enterLoop_withPhase (p : Phase) (s : State) : enterLoop (withPhase p s) = withPhase p (enterLoop s) := by
  have hlatched : latched (withPhase p s) = withPhase p (latched s) := by
    cases h : s.swapPending with
    | true => rw [latched_of_pending h, latched_of_pending (s := withPhase p s) h]; rfl
    | false => rw [latched_of_not_pending h, latched_of_not_pending (s := withPhase p s) h]; rfl
  rw [enterLoop_eq, enterLoop_eq, hlatched, CommandBlind.copyRun.withPhase]
  exact (apply_ite (withPhase p) _ _ _).symm

/-- The invariant of the loop does not look at the phase. -/
theorem State.LoopOk.withPhase {s : State} (h : s.LoopOk) (p : Phase) : (withPhase p s).LoopOk :=
  { h with
    running := fun e => { h.running e with }
    stopped := fun e => { h.stopped e with boundary := { (h.stopped e).boundary with } } }

theorem enterLoop_decoded (s : State) : (enterLoop s).decoded = s.decoded := by
  have hlatched : (latched s).decoded = s.decoded := by rw [latched_eq]
  rw [enterLoop_eq]
  split
  · exact hlatched
  · rw [copyRun_decoded, moveBytes_decoded, hlatched]

/-- From step 2 of R174 the small steps reach the closed command. -/
theorem State.AtSwap.reaches_closeLoop {s : State} (h : s.AtSwap) (hd : s.decoded = none) :
    Reaches (withPhase .swap s) (closeLoop (runLoop s)) := by
  have hstep : step (withPhase .swap s) = .next (withPhase .loop (enterLoop s)) := by
    rw [step_swap rfl, enterLoop_withPhase]
    rfl
  have hloop : Reaches (withPhase .loop (enterLoop s)) (withPhase .loop (runLoop s)) := by
    rw [runLoop, ← (CommandBlind.decodeLoop _).withPhase]
    exact .decodeLoop _ (h.enterLoop_loopOk.withPhase _) rfl ((enterLoop_decoded s).trans hd)
  have hclose : step (withPhase .loop (runLoop s)) = .next (closeLoop (runLoop s)) :=
    step_loop_close rfl h.runLoop_spec.2.1
  exact .step hstep (hloop.trans (.single hclose))

section

variable {chunk : List Byte} {s : State}

theorem startChunk_fatal (h : s.fatal = true) : startChunk chunk s =
    closeCommand (emptyResponse .fatal s.faultCode .none) (openCommand chunk s) := if_pos h

theorem startChunk_ended (h : s.fatal = false) (he : s.ended = true) : startChunk chunk s =
    closeCommand (emptyResponse .ok .none .ended) (openCommand chunk s) := by
  simp only [startChunk, openCommand_fatal, openCommand_ended, h, he, if_true, Bool.false_eq_true, if_false]

/-- Past the early outs of R175 the header or the swap comes first. -/
theorem startChunk_ready (h : s.fatal = false) (he : s.ended = false) : startChunk chunk s =
    withPhase (if s.headerOutstanding then .modeByte else .swap) (openCommand chunk s) := by
  have hfatal : ¬ (openCommand chunk s).fatal = true := by simp [h]
  have hended : ¬ (openCommand chunk s).ended = true := by simp [he]
  exact (if_neg hfatal).trans (if_neg hended)

/-- A mode byte 0 goes on to the dictionary byte (R141). -/
theorem reaches_dictByte (h : s.fatal = false) (he : s.ended = false) (hh : s.headerOutstanding = true)
    {rest : List Byte} (hc : chunk = 0 :: rest) :
    Reaches (startChunk chunk s) (withPhase .dictByte (openCommand chunk s)) := by
  rw [startChunk_ready h he, if_pos hh]
  have hmode := step_modeByte (s := withPhase .modeByte (openCommand chunk s)) rfl rfl (congrArg (·[0]?) hc)
  exact .single (hmode.trans (modeZeroGoesOnToDict (withPhase .modeByte (openCommand chunk s)) hh))

end

/-- The small steps from a command's start reach what the big-step definition answers (R182). -/
theorem State.Inv.reaches_processChunk {s : State} (h : s.Inv) (hp : s.phase = .idle) (chunk : List Byte) :
    Reaches (startChunk chunk s) (processChunk chunk s) := by
  refine Machine.processChunk_cases (motive := Reaches (startChunk chunk s)) chunk s (fun hf => ?fatal)
    (fun hf he => ?ended)
    (fun hf he hh hc => ?noMode) (fun hf he hh b rest hc hb => ?badMode) (fun hf he hh hc => ?noDict)
    (fun hf he hh dict rest hc => ?header) (fun hf he hh => ?goesOn)
  case fatal =>
    rw [startChunk_fatal hf]
    exact .refl _
  case ended =>
    rw [startChunk_ended hf he]
    exact .refl _
  case noMode =>
    rw [startChunk_ready hf he, if_pos hh]
    exact .single (step_modeByte_empty rfl rfl (congrArg (·[0]?) hc))
  case badMode =>
    rw [startChunk_ready hf he, if_pos hh]
    have hmode := Machine.step_modeByte (s := withPhase .modeByte (openCommand chunk s)) rfl rfl (congrArg (·[0]?) hc)
    have hraise := modeNonzeroRaisesFatal b (withPhase .modeByte (openCommand chunk s)) hh hb
    exact .step (hmode.trans hraise) (.single (step_modeByte_close rfl (by simp)))
  case noDict =>
    exact (reaches_dictByte hf he hh hc).trans (.single (step_dictByte_missing rfl (congrArg (·[1]?) hc)))
  case header =>
    have hn : s.needMode = true := (h.idle_boundary hp).headerOutstanding_eq ▸ hh
    have hswap := (h.openCommand_boundary hp chunk).headerDone_atSwap h.table_wf h.window_wf h.position_ok hn hf rfl hc
    have hdict := Machine.step_dictByte (s := withPhase .dictByte (openCommand chunk s)) rfl (congrArg (·[1]?) hc)
    have hstore := exec_dict_outstanding (s := withPhase .dictByte (openCommand chunk s)) hh dict
    exact (reaches_dictByte hf he hh hc).trans (.step (hdict.trans hstore) (hswap.reaches_closeLoop rfl))
  case goesOn =>
    rw [startChunk_ready hf he, hh]
    exact (h.openCommand_atSwap hp chunk hf he hh).reaches_closeLoop rfl

/-- Settles O53, by the ways a command can go; the loop iteration by iteration (`Reaches.iteration`). -/
theorem smallStepsEqualProcessChunk : Obligations.SmallStepsEqualProcessChunk := by
  intro chunk s t h hp ht
  obtain rfl := processChunk_of_exec hp ht
  exact h.reaches_processChunk hp chunk

end Sys2Proof.Machine

/-! # What the commands answer

NEED_BITS and the stalled stream (R190, R204), the early outs (R175), RESET and NEW (R171, R172), the tests before a
symbol's effect (R176, R211), and what a step can refuse (R209). -/

namespace Sys2Proof.Machine

/-! ## NEED_BITS -/

/-- A loop that stops for want of bits, from the start of step 2 of R174. -/
theorem State.AtSwap.runLoop_needBits {s : State} (h : s.AtSwap) (hstop : (runLoop s).reason = .needBits) :
    (∃ n, (runLoop s).nextSymbol = .needBits n) ∧
      ((runLoop s).pos = s.chunk.length ∨ 57 ≤ (runLoop s).nbits.toNat) := by
  have hreason : s.reason ≠ .needBits := by
    rw [h.reason_none]
    decide
  have hchunk : (runLoop s).chunk = s.chunk := by rw [(runLoop_frame s).chunk, latched_chunk]
  have hend := h.enterLoop_loopOk.decodeLoop_needBits _ (enterLoop_reason_ne hreason) hstop
  rw [← hchunk]
  exact hend

/-- Settles O43: only a loop stops for NEED_BITS, after a refill that took all it could. -/
theorem needBitsMeansChunkExhaustedOrStalled : Obligations.NeedBitsMeansChunkExhaustedOrStalled := by
  intro chunk s t r h hp ht hresp hstop
  obtain rfl := processChunk_of_exec hp ht
  suffices H : ∀ r, (processChunk chunk s).response = some r → r.stop = .needBits →
      (∃ n, (processChunk chunk s).nextSymbol = .needBits n) ∧
        (r.consumed = chunk.length ∨ (processChunk chunk s).Stalled) from H r hresp hstop
  clear hresp hstop ht
  refine h.processChunk_cases (motive := fun t => ∀ r, t.response = some r → r.stop = .needBits →
      (∃ n, t.nextSymbol = .needBits n) ∧ (r.consumed = chunk.length ∨ t.Stalled)) hp chunk
    (fun _ r hr hstop => ?_) (fun _ _ r hr hstop => ?_) (fun _ _ _ r hr hstop => ?_)
    (fun _ _ _ _ _ _ _ r hr hstop => ?_) (fun _ _ _ r hr hstop => ?_) (fun u hu _ heq r hr hstop => ?_) <;>
    obtain rfl := Option.some.inj hr
  · cases hstop
  · cases hstop
  · cases hstop
  · cases hstop
  · cases hstop
  · obtain ⟨hmissing, hfilled⟩ := hu.runLoop_needBits (reason_of_stop_needBits hstop)
    have hchunk : u.chunk = chunk := by rw [heq]; rfl
    rw [hchunk] at hfilled
    exact ⟨hmissing, hfilled.imp_right fun hbits => ⟨hbits, hmissing⟩⟩

/-! ## The stalled stream -/

/-- On a stalled stream the loop stops at once, with nothing taken and nothing written (R190). -/
theorem State.AtSwap.runLoop_stalled {s : State} (h : s.AtSwap) (hp : s.swapPending = false) (hstall : s.Stalled) :
    runLoop s = stopNeedBits { s with start := s.writeOffs } := by
  obtain ⟨hbits, n, hmissing⟩ := hstall
  obtain ⟨hroom, _⟩ := h.not_pending_room hp
  obtain ⟨hn, hacc⟩ := h.boundary.bits
  have hle := h.boundary.cursor.2
  rw [runLoop, h.enterLoop_not_pending hp]
  set u : State := { s with start := s.writeOffs }
  have hrefill : refill u = u := refill_of_count_zero hn hacc (by
    change min (s.chunk.length - s.pos) ((64 - s.nbits.toNat) / 8) = 0
    omega)
  have hmissing' : (refill u).nextSymbol = .needBits n := by
    rw [hrefill]
    exact hmissing
  obtain ⟨k, hk⟩ : ∃ k, loopFuel u = k + 1 := Nat.exists_eq_add_of_le' (by
    change 1 ≤ 8193 - s.writeOffs.toNat
    omega)
  rw [hk, decodeLoop_of_going (s := u) h.reason_none, iteration_needBits (s := u) hroom hmissing', hrefill,
    decodeLoop_of_stopped (by simp)]

/-- Settles O44: the loop leaves the state it began with, but for the stop reason and the latch. -/
theorem stalledStreamStaysStalled : Obligations.StalledStreamStaysStalled := by
  intro chunk s h hready hn hpending hstall
  obtain ⟨hp, hf, he⟩ := hready
  have hh : s.headerOutstanding = false := (h.idle_boundary hp).headerOutstanding_eq.trans hn
  have hloop := (h.openCommand_atSwap hp chunk hf he hh).runLoop_stalled hpending hstall
  have hexec := exec_processChunk_idle hp chunk
  rw [processChunk_goesOn hf he (consumeHeader_done (s := openCommand chunk s) hh), hloop] at hexec
  refine ⟨_, loopResponse (stopNeedBits _), hexec, ?_, ?_, rfl, rfl, rfl, rfl, ?_⟩
  · simp [SameRegisters, SameStreamRegisters, closeLoop, loopResponse]
  · simp [SameStorage, closeLoop]
  · simp [loopResponse]

/-! ## The early outs -/

/-- A command answered before its loop changes no register and no byte (R175). -/
theorem closeCommand_openCommand_same (s : State) (chunk : List Byte) (status : Status) (code : FaultCode)
    (stop : Stop) :
    SameRegisters s (closeCommand (emptyResponse status code stop) (openCommand chunk s)) ∧
      SameStorage s (closeCommand (emptyResponse status code stop) (openCommand chunk s)) := by
  simp [SameRegisters, SameStreamRegisters, SameStorage, emptyResponse]

/-- Settles O39: the fatal check comes first. -/
theorem earlyOutsChangeNothing : Obligations.EarlyOutsChangeNothing := by
  intro chunk s hp hflags
  refine ⟨_, exec_processChunk_idle hp chunk, ?_⟩
  have hboth : s.Inv → ¬(s.ended = true ∧ s.fatal = true) := fun h => (h.idle_boundary hp).not_both
  cases hf : s.fatal with
  | true =>
    obtain ⟨hregs, hstorage⟩ := closeCommand_openCommand_same s chunk .fatal s.faultCode .none
    rw [processChunk_fatal hf]
    exact ⟨hregs, hstorage, rfl, hf ▸ hboth⟩
  | false =>
    obtain ⟨hregs, hstorage⟩ := closeCommand_openCommand_same s chunk .ok .none .ended
    have he : s.ended = true := hflags.resolve_left (by simp [hf])
    rw [processChunk_ended hf he]
    exact ⟨hregs, hstorage, rfl, hf ▸ hboth⟩

/-! ## RESET and NEW -/

/-- Settles O3: RESET writes what `resetRegisters` writes and drops the host's two records. -/
theorem resetCommandResetsRegistersOnly : Obligations.ResetCommandResetsRegistersOnly := fun s hp =>
  ⟨_, exec_reset_idle hp, resetRegisters_reset s, ⟨rfl, rfl, rfl, rfl⟩, fun _ => rfl, rfl, hp⟩

/-- NEW of a well-formed table (R171). -/
theorem exec_new_wf {T : CodeTable} (hT : T.wf = true) {s : State} (h : s.phase = .idle) :
    exec (.new T) s =
      .next { dropOutputs (resetRegisters s) with table := T, window := [], draw := s.draw + 1 } := by
  rw [exec_new, execNew, whenIdle_idle h]
  exact if_pos hT

/-- NEW of any other table (R209). -/
theorem exec_new_malformed {T : CodeTable} (hT : T.wf = false) {s : State} (h : s.phase = .idle) :
    exec (.new T) s = .refused .malformedTable := by
  rw [exec_new, execNew, whenIdle_idle h]
  exact if_neg (by simp [hT])

/-- Settles O5: in an empty window every byte reads as the power-on constant. -/
theorem newBindsAWellFormedTable : Obligations.NewBindsAWellFormedTable := fun _ s hp =>
  ⟨fun hT => ⟨_, exec_new_wf hT hp, resetRegisters_reset s, rfl, rfl, rfl, hp, fun _ => rfl⟩,
    fun hT => exec_new_malformed hT hp⟩

/-! ## The tests before a symbol's effect -/

theorem applySymbol_full {s : State} (h : s.writeOffs = 8192) (used : Nat) (effect : State → State) :
    applySymbol used effect s = stopHalfFull s := if_pos (full_true h)

theorem applySymbol_needBits {s : State} (h : s.writeOffs ≠ 8192) {used : Nat} (hu : s.nbits.toNat < used)
    (effect : State → State) : applySymbol used effect s = stopNeedBits s := by
  rw [applySymbol, full_false h]
  exact if_pos hu

/-- Settles O33: full half first, then missing bits (`applySymbol`). -/
theorem symbolsStopBeforeAnyEffect : Obligations.SymbolsStopBeforeAnyEffect := by
  intro b lc extra dc low s hlc tw
  refine ⟨fun hfull => ⟨?_, ?_, ?_⟩, fun hroom => ⟨fun hu => ?_, fun hu => ?_, fun hend hu => ?_⟩⟩
  · exact congrArg Host.Outcome.next (applySymbol_full hfull _ _)
  · exact congrArg Host.Outcome.next (applySymbol_full hfull _ _)
  · have hfull : ({ s with decoded := none } : State).writeOffs = 8192 := hfull
    rw [exec_ofPair hlc]
    by_cases hend : lengthValue s.table lc extra = s.table.endValue
    · rw [pairInstr_end hend, applySymbol_full hfull]
      rfl
    · rw [pairInstr_pair hend]
      exact congrArg Host.Outcome.next (applySymbol_full hfull _ _)
  · exact congrArg Host.Outcome.next (applySymbol_needBits hroom hu _)
  · exact congrArg Host.Outcome.next (applySymbol_needBits hroom hu _)
  · rw [exec_ofPair hlc, pairInstr_pair hend]
    exact congrArg Host.Outcome.next (applySymbol_needBits (s := { s with decoded := none }) hroom hu _)

/-! ## What a step can refuse -/

/-- Only a command is refused, and with no other in progress only a NEW, for its table (R171, R209, R240). -/
theorem exec_refused {i : Instr} {s : State} {r : Refusal} (h : exec i s = .refused r) :
    i.space = .command ∧ (s.phase = .idle → r = .malformedTable ∧ ∃ T, i = .new T ∧ T.wf = false) := by
  induction i using Instr.casesShape with
  | mode | dict | lit | endMark => cases h
  | pair lc hlc extra dc low => rw [exec_ofPair hlc] at h; cases h
  | dist dc hdc low =>
    rw [exec_ofDist hdc, distInstr] at h
    split at h <;> cases h
  | isEnded => exact ⟨rfl, fun hp => by rw [exec_isEnded_idle hp] at h; cases h⟩
  | processChunk chunk => exact ⟨rfl, fun hp => by rw [exec_processChunk_idle hp] at h; cases h⟩
  | reset => exact ⟨rfl, fun hp => by rw [exec_reset_idle hp] at h; cases h⟩
  | new T =>
    refine ⟨rfl, fun hp => ?_⟩
    cases hT : T.wf with
    | true => rw [exec_new_wf hT hp] at h; cases h
    | false =>
      rw [exec_new_malformed hT hp] at h
      cases h
      exact ⟨rfl, T, rfl, hT⟩

theorem ofPair_not_command (lc extra dc low : Nat) : (Instr.ofPair lc extra dc low).space ≠ .command := by
  by_cases h : lc < 16
  · rw [Instr.space_ofPair h]
    decide
  · rw [Instr.ofPair, List.getD_eq_default _ _ (Nat.le_of_not_lt h)]
    exact Space.noConfusion

theorem ofDist_not_command (dc low : Nat) : (Instr.ofDist dc low).space ≠ .command := by
  by_cases h : dc < 64
  · rw [Instr.space_ofDist h]
    decide
  · rw [Instr.ofDist, List.getD_eq_default _ _ (Nat.le_of_not_lt h)]
    exact Space.noConfusion

/-- The stream holds no command, whatever the table (R121). -/
theorem decodeStage_not_command {win nbits d used : Nat} {T : CodeTable} {i : Instr}
    (h : decodeStage win nbits T d = .sym i used) : i.space ≠ .command := by
  unfold decodeStage at h
  rcases decodeWith_cases Instr.lit (fun len => .endMark len.code len.extra)
    (fun _ dist => .ofDist dist.code dist.low) win nbits T d with ⟨_, e⟩ | ⟨_, _, e⟩ | ⟨_, _, e⟩ <;> rw [e] at h <;>
    obtain ⟨rfl, _, _⟩ := checkBits_sym h
  · exact Space.noConfusion
  · exact Space.noConfusion
  · exact ofDist_not_command _ _

/-- Inside a PROCESS_CHUNK no step runs a command. -/
theorem idle_of_step_refused {s : State} {r : Refusal} (h : step s = .refused r) : s.phase = .idle := by
  cases hp : s.phase with
  | idle => rfl
  | modeByte =>
    by_cases hr : s.reason = .none
    · cases hc : s.chunk[0]? with
      | none => rw [step_modeByte_empty hp hr hc] at h; cases h
      | some b =>
        rw [step_modeByte hp hr hc] at h
        exact absurd (exec_refused h).1 Space.noConfusion
    · rw [step_modeByte_close hp hr] at h
      cases h
  | dictByte =>
    cases hc : s.chunk[1]? with
    | none => rw [step_dictByte_missing hp hc] at h; cases h
    | some b =>
      rw [step_dictByte hp hc] at h
      exact absurd (exec_refused h).1 Space.noConfusion
  | swap =>
    rw [step_swap hp] at h
    cases h
  | loop =>
    by_cases hr : s.reason = .none
    · cases hd : s.decoded with
      | some dist =>
        rw [step_loop_pair hp hr hd] at h
        exact absurd (exec_refused h).1 (ofPair_not_command _ _ _ _)
      | none =>
        by_cases hw : s.writeOffs = 8192
        · rw [step_loop_full hp hr hd hw] at h
          cases h
        · cases hi : decodeStage (refill s).acc.toNat (refill s).nbits.toNat s.table s.dictBits.toNat with
          | needBits n => rw [step_loop_needBits hp hr hd hw hi] at h; cases h
          | sym i used =>
            rw [step_loop_stage hp hr hd hw hi] at h
            exact absurd (exec_refused h).1 (decodeStage_not_command hi)
    · rw [step_loop_close hp hr] at h
      cases h

/-- Settles O52: a step that refuses runs the next command of the port. -/
theorem stepRefusesOnlyMalformedTables : Obligations.StepRefusesOnlyMalformedTables := by
  intro s r h
  have hp := idle_of_step_refused h
  cases hport : s.port with
  | nil => rw [step_idle_waiting hp hport] at h; cases h
  | cons record rest =>
    rw [step_idle_command hp hport] at h
    obtain ⟨hr, T, hnew, hT⟩ := (exec_refused h).2 hp
    exact ⟨hr, hp, T, rest.map decodeCommand, hT, by rw [List.map_cons, hnew]⟩

end Sys2Proof.Machine

/-! # The exceptions

The header's backpressure (R202, R203), UNSUPPORTED_MODE through PROCESS_CHUNK (R207), and that the one fault of the
model, of a distance sub-field outside a pair, is met by no step (R111, R201, log 8). -/

namespace Sys2Proof.Machine

/-! ## What can fault -/

/-- What holds a command back is a refusal (R170, R240). -/
theorem whenIdle_ne_fault {s : State} {run : State → Host.Outcome State Fault Refusal} {e : Fault}
    (h : run s ≠ .fault e) : whenIdle s run ≠ .fault e := by
  by_cases hp : s.phase = .idle
  · rwa [whenIdle_idle hp]
  · rw [whenIdle_busy hp]
    nofun

theorem exec_new_ne_fault (T : CodeTable) (s : State) (e : Fault) : exec (.new T) s ≠ .fault e := by
  rw [exec_new]
  refine whenIdle_ne_fault ?_
  split <;> nofun

/-- Only a distance sub-field faults, and only in a window that holds no pair (R111). -/
theorem exec_fault {i : Instr} {s : State} {e : Fault} (h : exec i s = .fault e) :
    i.space = .distance ∧
      (field s.acc.toNat 0 1 = 0 ∨ (lengthPart s.table s.acc.toNat).val = s.table.endValue) := by
  induction i using Instr.casesShape with
  | mode | dict | lit | endMark => cases h
  | pair lc hlc extra dc low => rw [exec_ofPair hlc] at h; cases h
  | dist dc hdc low =>
    refine ⟨Instr.space_ofDist hdc low, ?_⟩
    rw [exec_ofDist hdc, distInstr] at h
    split at h
    · next hnone => exact hnone
    · cases h
  | isEnded =>
    rw [exec_isEnded] at h
    exact absurd h (whenIdle_ne_fault nofun)
  | processChunk chunk =>
    rw [exec_processChunk] at h
    exact absurd h (whenIdle_ne_fault nofun)
  | reset =>
    rw [exec_reset] at h
    exact absurd h (whenIdle_ne_fault nofun)
  | new T => exact absurd h (exec_new_ne_fault T s e)

/-! ## Which steps run a distance sub-field -/

/-- Pair fields stand for a pair whatever their length code, one above 15 included, which only a malformed table gives
(R95). -/
theorem ofPair_symbol (lc extra dc low : Nat) : (Instr.ofPair lc extra dc low).space = .symbol := by
  by_cases h : lc < 16
  · exact Instr.space_ofPair h extra dc low
  · rw [Instr.ofPair, List.getD_eq_default _ _ (Nat.le_of_not_lt h)]
    rfl

theorem decodeCommand_not_distance (r : CommandRecord) : (decodeCommand r).space ≠ .distance := by
  rcases decodeCommand_cases r with e | e | e | e <;> rw [e] <;> exact Space.noConfusion

/-- Where a loop iteration starts with a distance sub-field the window holds a pair (R121), whatever the table. -/
theorem decodeStage_distance {win nbits d used : Nat} {T : CodeTable} {i : Instr}
    (h : decodeStage win nbits T d = .sym i used) (hi : i.space = .distance) :
    field win 0 1 ≠ 0 ∧ (lengthPart T win).val ≠ T.endValue := by
  unfold decodeStage at h
  rcases decodeWith_cases Instr.lit (fun len => .endMark len.code len.extra)
    (fun _ dist => .ofDist dist.code dist.low) win nbits T d with ⟨_, e⟩ | ⟨_, _, e⟩ | ⟨hclass, hend, _⟩
  · rw [e] at h
    obtain ⟨rfl, _, _⟩ := checkBits_sym h
    cases hi
  · rw [e] at h
    obtain ⟨rfl, _, _⟩ := checkBits_sym h
    cases hi
  · exact ⟨hclass, hend⟩

theorem fetchMode_run {s t : State} {i : Instr} (h : fetchMode s = .run i t) : ∃ b, i = .mode b := by
  rw [fetchMode] at h
  split at h
  · cases h
  · split at h
    · cases h
    · next b _ => cases h; exact ⟨b, rfl⟩

theorem fetchDict_run {s t : State} {i : Instr} (h : fetchDict s = .run i t) : ∃ b, i = .dict b := by
  rw [fetchDict] at h
  split at h
  · cases h
  · next b _ => cases h; exact ⟨b, rfl⟩

theorem fetchCommand_run {s t : State} {i : Instr} (h : fetchCommand s = .run i t) : ∃ r, i = decodeCommand r := by
  rw [fetchCommand] at h
  split at h
  · cases h
  · next r _ _ => cases h; exact ⟨r, rfl⟩

/-- In the loop a step runs the pair whose distance part is decoded, or what the window's first stage is (R176). -/
theorem fetchSymbol_run {s t : State} {i : Instr} (h : fetchSymbol s = .run i t) :
    (∃ lc extra dc low, i = .ofPair lc extra dc low) ∨
      ∃ used, decodeStage t.acc.toNat t.nbits.toNat t.table t.dictBits.toNat = .sym i used := by
  rw [fetchSymbol] at h
  split at h
  · cases h
  · split at h
    · cases h
      exact .inl ⟨_, _, _, _, rfl⟩
    · simp only at h
      split at h
      · cases h
      · split at h
        · cases h
        · next used hstage =>
          cases h
          exact .inr ⟨used, hstage⟩

/-- A step that runs a distance sub-field runs it in the window it was decoded from, which holds a pair. -/
theorem fetch_distance {s t : State} {i : Instr} (h : fetch s = .run i t) (hi : i.space = .distance) :
    field t.acc.toNat 0 1 ≠ 0 ∧ (lengthPart t.table t.acc.toNat).val ≠ t.table.endValue := by
  cases hp : s.phase <;> simp only [fetch, hp] at h
  case idle =>
    obtain ⟨r, rfl⟩ := fetchCommand_run h
    exact absurd hi (decodeCommand_not_distance r)
  case modeByte =>
    obtain ⟨b, rfl⟩ := fetchMode_run h
    cases hi
  case dictByte =>
    obtain ⟨b, rfl⟩ := fetchDict_run h
    cases hi
  case swap => cases h
  case loop =>
    rcases fetchSymbol_run h with ⟨lc, extra, dc, low, rfl⟩ | ⟨used, hstage⟩
    · rw [ofPair_symbol] at hi
      cases hi
    · exact decodeStage_distance hstage hi

/-- Settles O51: a fault needs a distance sub-field in a window without a pair (`exec_fault`), and the window of one
that a step runs holds a pair (`fetch_distance`). -/
theorem stepNeverFaults : Obligations.StepNeverFaults := by
  intro s e h
  rw [step] at h
  split at h
  · next i t hfetch =>
    obtain ⟨hspace, hnone⟩ := exec_fault h
    obtain ⟨hclass, hend⟩ := fetch_distance hfetch hspace
    exact hnone.elim hclass hend
  · cases h

/-! ## The header through PROCESS_CHUNK, with a byte missing or of another mode -/

/-- Settles O22: `ConsumeHeader` ends the command in the state it was opened in (R144). -/
theorem headerBackpressureChangesNothing : Obligations.HeaderBackpressureChangesNothing := by
  intro s ⟨hp, hf, he⟩ hh
  constructor
  · obtain ⟨hregs, hstorage⟩ := closeCommand_openCommand_same s [] .needMode .none .none
    have hends := processChunk_ends hf he (consumeHeader_nil (s := openCommand [] s) hh rfl)
    exact ⟨_, exec_processChunk_idle hp [], hends ▸ hregs, hends ▸ hstorage, hends ▸ rfl⟩
  · obtain ⟨hregs, hstorage⟩ := closeCommand_openCommand_same s [0] .needDictBits .none .none
    have hends := processChunk_ends hf he (consumeHeader_single (s := openCommand [0] s) hh rfl)
    exact ⟨_, exec_processChunk_idle hp [0], hends ▸ hregs, hends ▸ hstorage, hends ▸ rfl⟩

/-- Settles O23: the command ends after `raiseFatal`, whose only registers are `fatal` and its code (R206). -/
theorem unsupportedModeIsFatal : Obligations.UnsupportedModeIsFatal := by
  intro b rest s ⟨hp, hf, he⟩ hh hb
  refine ⟨_, exec_processChunk_idle hp (b :: rest), ?_⟩
  rw [processChunk_ends hf he (consumeHeader_unsupported (s := openCommand (b :: rest) s) hh rfl hb)]
  simp [SameStreamRegisters, SameStorage, emptyResponse]

end Sys2Proof.Machine

/-! # Reset and overlapping commands

That a second RESET finds nothing left to write (R234), and that a command given inside another is refused (R240, log
9). -/

namespace Sys2Proof.Machine

/-! ## RESET again -/

@[simp] theorem resetRegisters_idem (s : State) : resetRegisters (resetRegisters s) = resetRegisters s := rfl

@[simp] theorem dropOutputs_idem (s : State) : dropOutputs (dropOutputs s) = dropOutputs s := rfl

/-- The host's two records are no registers, so the two halves of RESET may run in either order. -/
theorem resetRegisters_dropOutputs (s : State) :
    resetRegisters (dropOutputs s) = dropOutputs (resetRegisters s) := rfl

/-- Settles O4: each half of RESET is idempotent and the two commute; RESET keeps the phase, so the second one
completes as well. -/
theorem resetTwiceIsResetOnce : Obligations.ResetTwiceIsResetOnce := by
  intro s t hp ht
  rw [exec_reset_idle hp] at ht
  obtain rfl := Host.Outcome.next.inj ht
  have hidle : (dropOutputs (resetRegisters s)).phase = .idle := hp
  rw [exec_reset_idle hidle, resetRegisters_dropOutputs, resetRegisters_idem, dropOutputs_idem]

/-! ## A command inside another -/

/-- The test for a command in progress comes before all else a command does (R170, R240), the table test of NEW
included. -/
theorem exec_command_busy {i : Instr} (hi : i.space = .command) {s : State} (hp : s.phase ≠ .idle) :
    exec i s = .refused .commandOverlap := by
  induction i using Instr.casesShape with
  | isEnded => rw [exec_isEnded, execIsEnded, whenIdle_busy hp]
  | processChunk chunk => rw [exec_processChunk, execProcessChunk, whenIdle_busy hp]
  | reset => rw [exec_reset, execReset, whenIdle_busy hp]
  | new T => rw [exec_new, execNew, whenIdle_busy hp]
  | pair lc hlc extra dc low => rw [Instr.space_ofPair hlc] at hi; cases hi
  | dist dc hdc low => rw [Instr.space_ofDist hdc] at hi; cases hi
  | mode | dict | lit | endMark => cases hi

/-- Settles O38: all four are instructions of the command space (`exec_command_busy`). -/
theorem overlappingCommandsAreRefused : Obligations.OverlappingCommandsAreRefused := fun _ _ _ hp =>
  ⟨exec_command_busy rfl hp, exec_command_busy rfl hp, exec_command_busy rfl hp, exec_command_busy rfl hp⟩

end Sys2Proof.Machine
